-- ==== Sys2Proof/Word.lean ====
section
/-! DEFINITION. The part's plain words (spec/00_scope.md, Conventions) and the container of a
fixed number of four like things (four lanes, four cue inputs, four fonts). -/

namespace Sys2Proof

/-- A byte of memory, of a command slot or of the configuration image. -/
abbrev Byte := BitVec 8

/-- A word is 32 bits; so is a byte address (00_scope.md, Byte order). -/
abbrev Word := BitVec 32

/-- A coverage nibble of a glyph bitmap (R117). -/
abbrev Nibble := BitVec 4

/-- Four like things, numbered 0 to 3. -/
structure Four (α : Type) where
  e0 : α
  e1 : α
  e2 : α
  e3 : α
  deriving DecidableEq, Repr

/-- All four alike. -/
abbrev Four.all {α : Type} (a : α) : Four α := ⟨a, a, a, a⟩

end Sys2Proof
end

