-- ==== Sys2Proof/Syntax.lean ====
section
/-! DEFINITION. The commands the part takes: one constructor of `Instr` for each row of
spec/opcode_table.json, with what the environment brings along as its operands.

The rows that are commands of the command window take no operand here: they are the execution of
the command at the head of the intake queue (R148), and their operands are the argument words that
its closing write delivered (R142, R172). -/

namespace Sys2Proof

/-- Memory's response to a transaction (R153, R155). -/
inductive MemResp where
  | okay
  | error
  deriving DecidableEq, Repr

/-- The size a transaction carries: its beats name 2 to the `n` bytes each, 1 to the 16 of the
128-bit ports (R93, R153). -/
abbrev BeatSize := Fin 5

/-- The length in beats and the size that a scan read carries (R93). -/
structure Burst where
  len  : Nat
  size : BeatSize
  deriving DecidableEq, Repr

/-- One write beat: 16 byte lanes on a 16-byte-aligned address (R46). `index` is the address
divided by 16 and `low` its lowest four bits as presented; bit `i` of `enables` is the byte enable of
lane `i`, whose byte is bits `8 i + 7 .. 8 i` of `data`. -/
structure Beat where
  index   : BitVec 28
  low     : BitVec 4
  data    : BitVec 128
  enables : BitVec 16
  deriving DecidableEq, Repr

/-- A write transaction of the system port: its size, its beats in the order presented (R51), the first
of them at the transaction's address and their number its length, and the responses memory will give to
the parts in which it is carried to memory (R155); a part past the end of the list is answered okay. -/
structure WriteTxn where
  size    : BeatSize
  beats   : List Beat
  replies : List MemResp
  deriving DecidableEq, Repr

/-- A read transaction of the system port, with what memory answers (R153): every beat carries four
words, whatever the size (00_scope.md, Byte order). -/
structure ReadTxn where
  addr  : Word
  len   : Nat
  size  : BeatSize
  data  : List Word
  reply : MemResp
  deriving DecidableEq, Repr

/-- A transaction the playout processor presents at the system port. -/
inductive SysTxn where
  | write (t : WriteTxn)
  | read (t : ReadTxn)
  deriving DecidableEq, Repr

/-- The straps: ANCHOR_SEL[3:0], and FLOW_SEL (true is 1, PASS). -/
structure Straps where
  anchorSel : BitVec 4
  flowSel   : Bool
  deriving DecidableEq, Repr

/-- One block's share of a field start, as it arrives (R8, R54, R122, R124): the style table's
transfer, the transfer check of one quote slot, the next step of one lane's work, the clock's
accumulation with its tick. -/
inductive FieldTok where
  | styles
  | slot (n : Nat)
  | lane (n : Fin 4)
  | clock
  deriving DecidableEq, Repr

/-- One block's share of a scan read, as it arrives: the sampling of one cue input at a line start
(R133: an event of its own), or the report writer's examination of the frame line (R161). -/
inductive ReadTok where
  | cue (n : Fin 4)
  | report
  deriving DecidableEq, Repr

/-- The rows of spec/opcode_table.json, in the table's order. -/
inductive Instr where
  | laneForm
  | laneMotion
  | take
  | start
  | stop
  | hold
  | resume
  | restore
  | enqueue
  | dequeue
  | clear
  | itemDefine
  | itemDrop
  | textSegment
  | styleColors
  | styleForm
  | clockSet
  | scheduleSet
  | scheduleClear
  | cueSet
  | cueoutLevel
  | eventMask
  | eventAck
  | reinit
  | reload
  | badCommand
  | systemWrite (t : WriteTxn)
  | systemRead (t : ReadTxn)
  | heldWriteRelease
  | stallLimitExpiry
  | abortAnswer
  | resultWrite (scanWaits sysWaits : Bool)
  | writeBackDrain (reply : MemResp)
  | reportWrite (scanWaits sysWaits : Bool) (more : Fin 4)
  | scanRead (addr : Word) (burst : Burst) (levels : Four Bool) (order : List ReadTok)
  | scanBeat (index : BitVec 28) (words : Four Word) (reply : MemResp)
  | scanWrite (addr : Word)
  | fieldStart (parity : Bool) (order : List FieldTok)
  | passLimitReached (lane : Fin 4)
  | pageEnd (lane : Fin 4)
  | holdExpiry (lane : Fin 4) (entry : Nat)
  | fadeOutEnd (lane : Fin 4)
  | secondTick
  | killLatchSet
  | powerOnReset
  | resetRelease (straps : Straps) (killN : Bool)
  | busFreeStart
  | imageByteReceived (byte : Byte) (straps : Straps)
  | noDevice (straps : Straps)
  | arbitrationLost
  | busTimeout (straps : Straps)
  | killNRise
  deriving DecidableEq, Repr

end Sys2Proof
end

