-- ==== Sys2Proof/WellFormed.lean ====
section
/-! DEFINITION. Which operands the part's ports can present. Most are well formed by their types;
the checks below are the rest. The meanings are total: they answer for ill-formed commands too. -/

namespace Sys2Proof

/-- A transaction carries at least one beat. -/
def WriteTxn.wf (t : WriteTxn) : Bool := !t.beats.isEmpty

/-- A read has at least one beat, and memory answers with the four words of each (00_scope.md). -/
def ReadTxn.wf (t : ReadTxn) : Bool := decide (1 ≤ t.len) && t.data.length == 4 * t.len

/-- The symbol table has 2048 slots (R45). -/
def FieldTok.wf : FieldTok → Bool
  | .slot n => decide (n < 2048)
  | _ => true

/-- Whether the environment can send this command. -/
def Instr.wf : Instr → Bool
  | .systemWrite t => t.wf
  | .systemRead t => t.wf
  | .scanRead _ burst _ _ => decide (1 ≤ burst.len)
  | .fieldStart _ order => order.all FieldTok.wf
  | .holdExpiry _ entry => decide (entry < 48)
  | _ => true

end Sys2Proof
end

