-- ==== Sys2Proof/Config.lean ====
section
/-! DEFINITION. The fixed sizes of the part, each with the rule that gives it. The spec leaves no
value of any operation open, so there is no free value here (INVENTORY.md). What an implementation's
image configures is state (`Conf`), since RELOAD replaces it. -/

namespace Sys2Proof.Config

/-- R143: the intake queue holds up to 64 commands. -/
abbrev intakeDepth : Nat := 64
/-- R156: the write-back queue holds up to 16 result words. -/
abbrev writeBackDepth : Nat := 16
/-- R22: the ring's length never exceeds 96. -/
abbrev ringMax : Nat := 96
/-- R22: the placed count never exceeds 48. -/
abbrev placedMax : Nat := 48
/-- R109: the item store holds 512 records. -/
abbrev itemCount : Nat := 512
/-- R113: the text store holds 4096 segments. -/
abbrev segmentCount : Nat := 4096
/-- R45: the aperture holds 2048 quote slots. -/
abbrev quoteCount : Nat := 2048
/-- R119: the style table holds 32 styles. -/
abbrev styleCount : Nat := 32
/-- R126: the schedule holds 16 entries. -/
abbrev scheduleCount : Nat := 16
/-- R30: the rebase distance, in pixels. -/
abbrev rebasePixels : Nat := 1048576
/-- R81: the peak of an envelope. -/
abbrev envelopePeak : Nat := 65280
/-- R117: nibbles of coverage storage. -/
abbrev nibbleMax : Nat := 1048576
/-- R168: the EEPROM's 64 KiB. -/
abbrev imageMax : Nat := 65536
/-- R145: the stall limit when no image gives one, in microseconds. -/
abbrev stallDefault : Nat := 20

end Sys2Proof.Config
end

