-- ==== Sys2Proof/Machine/State.lean ====
section
/-! DEFINITION. The state of the part as plain data: every register, queue, store, mode and pin the
spec gives it (INVENTORY.md, State), and the machine right after power-on reset. Every type's
docstring names the rule that gives it. -/

namespace Sys2Proof.Machine

/-! ### Stores

A numbered store (items, segments, quote slots ...) lists only the records that differ from the
reset record, numbers strictly rising; `Machine/Ops.lean` has its operations, `Laws/Store.lean` the
lemma that each keeps this form. -/

/-- Numbered records, those at their default unlisted. -/
abbrev Store (α : Type) := List (Nat × α)

/-! ### Lanes (R1, R21) -/

/-- R1: the seven lane states. -/
inductive LaneState where
  | off
  | armed
  | running
  | held
  | draining
  | fadingOut
  | killed
  deriving DecidableEq, Repr

/-- R3: the kind of a lane. -/
inductive LaneKind where
  | crawl
  | flip
  deriving DecidableEq, Repr

/-- R1: what RESUME returns a HELD lane to. -/
inductive Resume where
  | running
  | draining
  deriving DecidableEq, Repr

/-- R3: a form, the lane's geometry and style. -/
structure Form where
  kind   : LaneKind
  top    : Nat
  height : Nat
  left   : Nat
  right  : Nat
  style  : Nat
  deriving DecidableEq, Repr

/-- R4: a motion. -/
structure Motion where
  speed     : Nat
  gap       : Nat
  dwell     : Nat
  fade      : Nat
  passLimit : Nat
  cueColumn : Nat
  deriving DecidableEq, Repr

/-- R81: the phases of an envelope. -/
inductive Phase where
  | idle
  | attack
  | decay
  | sustain
  | release
  deriving DecidableEq, Repr

/-- R81: the direction of an envelope. -/
inductive Direction where
  | up
  | down
  deriving DecidableEq, Repr

/-- R81: the highlight envelope of a placed entry. -/
structure Envelope where
  phase     : Phase
  level     : Nat
  direction : Direction
  hold      : Nat
  deriving DecidableEq, Repr

/-- R21: the placement record of a placed entry. -/
structure Placement where
  start    : Int
  width    : Nat
  style    : Nat
  env      : Envelope
  lastEdge : Int
  noRepeat : Bool
  deriving DecidableEq, Repr

/-- R1, R21: what a lane controller holds. The placed count p is the length of `placed`, whose
records belong to the first p entries of `ring`. -/
structure Lane where
  state      : LaneState
  form       : Form
  motion     : Motion
  pendForm   : Option Form
  pendMotion : Option Motion
  takeMark   : Bool
  fade       : Nat
  resume     : Resume
  motionOn   : Bool
  offset     : Nat
  passCount  : Nat
  dwellCount : Nat
  ring       : List Nat
  placed     : List Placement
  deriving DecidableEq, Repr

/-! ### Quote slots (R45) -/

/-- R49: the status of a quote. -/
inductive QuoteStatus where
  | normal
  | halted
  | closed
  deriving DecidableEq, Repr

/-- R45: a quote value. -/
structure QuoteValue where
  symbol   : List Byte
  price    : Int
  change   : Int
  decimals : Nat
  status   : QuoteStatus
  percent  : Bool
  deriving DecidableEq, Repr

/-- R45: a quote slot. The pending flag is `pend.isSome`; the vacant flag is `shown.isNone`, since
it is set exactly while the shown value is none. -/
structure QuoteSlot where
  asm   : List Byte
  pend  : Option QuoteValue
  shown : Option QuoteValue
  deriving DecidableEq, Repr

/-! ### Items, text, fonts and styles (R109, R113, R117, R119) -/

/-- R109: the cue-out actions. -/
inductive CueOut where
  | none
  | set0
  | clear0
  | toggle0
  | set1
  | clear1
  | toggle1
  deriving DecidableEq, Repr

/-- R109: the kind of an item with its source. -/
inductive ItemSource where
  | text (head : Nat)
  | quote (slot : Nat)
  | clock
  deriving DecidableEq, Repr

/-- R109: an item record. -/
structure Item where
  defined   : Bool
  source    : ItemSource
  override  : Option Nat
  repeats   : Bool
  marker    : Bool
  cueOut    : CueOut
  tag       : BitVec 16
  deriving DecidableEq, Repr

/-- R113: a text segment. -/
structure Segment where
  count : Nat
  next  : Option Nat
  codes : List Byte
  deriving DecidableEq, Repr

/-- R117: a glyph: advance (0 is undefined), bitmap width, coverage nibbles row by row. -/
structure Glyph where
  advance : Nat
  width   : Nat
  nibbles : List Nibble
  deriving DecidableEq, Repr

/-- R117: a font. Unlisted glyphs are undefined. -/
structure Font where
  height         : Nat
  defaultAdvance : Nat
  glyphs         : Store Glyph
  deriving DecidableEq, Repr

/-- A color: Y, Cb, Cr, each 0..1023 (00_scope.md, Colors). -/
structure Color where
  y  : Nat
  cb : Nat
  cr : Nat
  deriving DecidableEq, Repr

/-- R119: the six colors that STYLE_COLORS carries. -/
structure SixColors where
  fill : Color
  text : Color
  up   : Color
  down : Color
  flat : Color
  halt : Color
  deriving DecidableEq, Repr

/-- R119, 7.4: the fields of a style that enter into a width. -/
structure WidthFields where
  font       : Nat
  pad        : Nat
  minWidth   : Nat
  separators : Bool
  percent    : Bool
  seconds    : Bool
  deriving DecidableEq, Repr

/-- R119, R121: the appearance fields that STYLE_FORM carries. -/
structure FlashFields where
  flashUp   : Color
  flashDown : Color
  alpha     : Nat
  legalize  : Bool
  attack    : Nat
  decay     : Nat
  release   : Nat
  sustain   : Nat
  hold      : Nat
  deriving DecidableEq, Repr

/-- R119: a style record. The appearance fields are `colors` and `flash`. -/
structure Style where
  colors : SixColors
  flash  : FlashFields
  width  : WidthFields
  deriving DecidableEq, Repr

/-! ### Station clock and schedule (R123, R126) -/

/-- A BCD time of day (00_scope.md, Time of day). -/
structure TimeOfDay where
  hours   : Byte
  minutes : Byte
  seconds : Byte
  deriving DecidableEq, Repr

/-- R123: the clock's state that no image gives. -/
structure Clock where
  time : TimeOfDay
  acc  : Nat
  deriving DecidableEq, Repr

/-- R129, R133: the lane actions that commands, the schedule and the cue inputs share. -/
inductive LaneAction where
  | start
  | stopDrain
  | stopFade
  | hold
  | resume
  | take
  deriving DecidableEq, Repr

/-- R126: an action of the schedule. -/
inductive SchedAction where
  | lane (a : LaneAction)
  | setStyle
  deriving DecidableEq, Repr

/-- R126: a schedule entry. `mask` names lanes 0..3 by its bits. -/
structure SchedEntry where
  armed  : Bool
  time   : TimeOfDay
  daily  : Bool
  action : SchedAction
  mask   : BitVec 4
  arg    : Nat
  deriving DecidableEq, Repr

/-! ### The cue unit (R131, R134, R136, R137) -/

/-- R131: which edges an input selects. -/
inductive Edge where
  | rise
  | fall
  | both
  deriving DecidableEq, Repr

/-- R131: the action of a cue input. -/
inductive CueAction where
  | none
  | capture
  | lane (a : LaneAction)
  deriving DecidableEq, Repr

/-- R134: a capture record. -/
structure Capture where
  valid       : Bool
  overwritten : Bool
  lane        : Fin 4
  item        : Option Nat
  tag         : Option (BitVec 16)
  count       : Word
  deriving DecidableEq, Repr

/-- R131: a cue input. -/
structure CueInput where
  filter   : Bool
  edge     : Edge
  action   : CueAction
  mask     : BitVec 4
  last     : Bool
  run      : Nat
  accepted : Bool
  capture  : Capture
  deriving DecidableEq, Repr

/-- R131, R136, R137: the cue unit. -/
structure CueUnit where
  inputs  : Four CueInput
  lineReg : Option Nat
  out0    : Bool
  out1    : Bool
  latch   : Bool
  deriving DecidableEq, Repr

/-! ### The command window (R140, R143, R145) -/

/-- R142: a command, words 0 to 5 and 7 of its slot's assembly. -/
structure Command where
  w0    : Word
  w1    : Word
  w2    : Word
  w3    : Word
  w4    : Word
  w5    : Word
  close : Word
  deriving DecidableEq, Repr

/-- R151: the result codes. -/
inductive ResultCode where
  | ok
  | badCommand
  | badArg
  | badState
  | inUse
  | full
  | notFound
  | overlap
  | killed
  | lineActive
  | slotBusy
  | notReady
  | aborted
  | blank
  | noDevice
  | busTimeout
  | imageOverrun
  | format
  deriving DecidableEq, Repr

/-- R140: a command slot. `lo` holds words 0 to 3 of the assembly, `hi` words 4 to 7. The slot state
IN_FLIGHT is `inFlight`. -/
structure CommandSlot where
  inFlight : Bool
  lo       : List Byte
  hi       : List Byte
  deriving DecidableEq, Repr

/-- R143: an entry of the intake queue. -/
structure IntakeEntry where
  slot    : Nat
  command : Command
  deriving DecidableEq, Repr

/-- R150: an accepted RELOAD at the head of the queue: answering the others ABORTED, or loading. -/
inductive ReloadStage where
  | aborting
  | loading
  deriving DecidableEq, Repr

/-- R140, R143, R145: the command intake. -/
structure Intake where
  slots   : Store CommandSlot
  queue   : List IntakeEntry
  reload  : Option ReloadStage
  overrun : Nat
  lastTag : BitVec 16
  deriving DecidableEq, Repr

/-- R144, R147: what a held write waits for: an entry of the intake queue to leave, or an entry of
the write-back queue to drain. -/
inductive HoldNeed where
  | intakeRoom
  | resultRoom
  deriving DecidableEq, Repr

/-- R144: a held write: its size, the closing beat and the beats behind it, what it waits for, whether
memory answered an earlier part with an error (R155), and the responses it has yet to get. -/
structure Held where
  size     : BeatSize
  beats    : List Beat
  need     : HoldNeed
  priorErr : Bool
  replies  : List MemResp
  deriving DecidableEq, Repr

/-- R144, R153: the system port. -/
structure SysPort where
  held    : Option Held
  waiting : List SysTxn
  deriving DecidableEq, Repr

/-! ### The part's own writes and the report writer (R156, R157, R161) -/

/-- R149, R156: a result word with its slot. -/
structure ResultWord where
  slot   : Nat
  code   : Byte
  result : ResultCode
  tag    : BitVec 16
  deriving DecidableEq, Repr

/-- R162: a report snapshot being written: the aperture's base at the snapshot, the beat that comes
next, the words not yet written, and how many results of the write-back queue go before it. -/
structure Report where
  anchor : Word
  next   : Nat
  words  : List Word
  ahead  : Nat
  deriving DecidableEq, Repr

/-- R156: the own-write source. `headWritten`: the head result's write has been granted and
memory's response to it is awaited. -/
structure OwnWrites where
  writeBack   : List ResultWord
  headWritten : Bool
  reports     : List Report
  deriving DecidableEq, Repr

/-- R157, R161, R163: the report writer. Bit `e` of `events` and `mask` is event number `e`. -/
structure ReportWriter where
  events : BitVec 19
  mask   : BitVec 19
  count  : Word
  taken  : Bool
  deriving DecidableEq, Repr

/-! ### The configuration loader and what it installs (R92, R123, R165) -/

/-- R165: the device states. -/
inductive DeviceState where
  | loading
  | unconfigured
  | active
  deriving DecidableEq, Repr

/-- R165: the loader's status. -/
inductive LoaderStatus where
  | loading
  | done
  | failed
  deriving DecidableEq, Repr

/-- R165: the reason of a failed load. -/
inductive LoadReason where
  | blank
  | noDevice
  | busTimeout
  | imageOverrun
  | format
  deriving DecidableEq, Repr

/-- R167: where the loader stands on the I2C bus: not reading, waiting for the bus to be free,
addressing the device, reading bytes. -/
inductive BusPhase where
  | idle
  | waiting
  | addressing
  | reading
  deriving DecidableEq, Repr

/-- R165, R167, R168: the loader. -/
structure Loader where
  status  : LoaderStatus
  reason  : Option LoadReason
  bus     : BusPhase
  staging : List Byte
  deriving DecidableEq, Repr

/-- R144: the flow mode. -/
inductive FlowMode where
  | hold
  | pass
  deriving DecidableEq, Repr

/-- R92: the decode configuration. -/
structure DecodeConfig where
  base0      : Word
  base1      : Word
  pitch      : Nat
  width      : Nat
  lines      : Nat
  interlaced : Bool
  deriving DecidableEq, Repr

/-- R123: the field rate, N / D fields per second. -/
structure FieldRate where
  n : Nat
  d : Nat
  deriving DecidableEq, Repr

/-- What a load installs besides fonts and styles (R169). -/
structure Conf where
  anchor     : Word
  flow       : FlowMode
  stall      : Nat
  decode     : Option DecodeConfig
  rate       : Option FieldRate
  reportLine : Option Nat
  deriving DecidableEq, Repr

/-- R119: the style table: current copies, pending copies, and the defaults of the last load.
Unlisted styles are built-in. -/
structure StyleTable where
  cur   : Store Style
  pend  : Store Style
  deflt : Store Style
  deriving DecidableEq, Repr

/-! ### Pins and ports (00_scope.md) -/

/-- The levels of the input pins, as last presented. -/
structure Pins where
  resetN : Bool
  killN  : Bool
  parity : Bool
  cueIn  : Four Bool
  straps : Straps
  deriving DecidableEq, Repr

/-- R155: the three sources the memory port's arbiter serves. -/
inductive Source where
  | scan
  | system
  | own
  deriving DecidableEq, Repr

/-- What the part drives on a port during one command. -/
inductive PortEvent where
  /-- A write transaction at the memory port, with its size; its address is that of its first beat, its
  length their number (R153, R155). -/
  | memWrite (src : Source) (size : BeatSize) (beats : List Beat)
  /-- A read transaction at the memory port: its address, length and size (R93, R153). -/
  | memRead (src : Source) (addr : Word) (len : Nat) (size : BeatSize)
  /-- The write response returned at the system port (R153). -/
  | sysWriteResp (reply : MemResp)
  /-- The read data and response returned at the system port (R153). -/
  | sysReadResp (data : List Word) (reply : MemResp)
  /-- A beat returned at the scan port (R93). -/
  | scanData (words : Four Word) (reply : MemResp)
  /-- The error response to a scan-port write (R93). -/
  | scanWriteError
  /-- A start of the I2C master, addressing 0x50 and this memory address (R167). -/
  | i2cStart (memAddr : Nat)
  /-- A stop of the I2C master (R167). -/
  | i2cStop
  /-- The I2C master releases SCL and SDA (R166, R167). -/
  | i2cRelease
  deriving DecidableEq, Repr

/-- The whole part. `pending` is the queue of commands from the environment, `out` what the latest
command drove on the ports; the rest is the spec's. -/
structure State where
  pending  : List Instr
  out      : List PortEvent
  pins     : Pins
  device   : DeviceState
  loader   : Loader
  conf     : Conf
  lanes    : Four Lane
  items    : Store Item
  segments : Store Segment
  fonts    : Four Font
  styles   : StyleTable
  quotes   : Store QuoteSlot
  clock    : Clock
  schedule : Store SchedEntry
  cue      : CueUnit
  parity   : Bool
  intake   : Intake
  port     : SysPort
  own      : OwnWrites
  rep      : ReportWriter
  deriving DecidableEq, Repr

/-- Faults: none. The spec gives the part no event that stops it: refusals of commands are result
codes (R151), failed loads are device states (R169), bus errors are returned (R93, R153). -/
inductive Fault where
  deriving DecidableEq, Repr

/-- Refusals of the model. -/
inductive Refusal where
  /-- Raised by `exec` for a row of the table that has no meaning yet; safe, since nothing is
  claimed of it. No arm raises it now. -/
  | notModelled (mnemonic : String)
  deriving DecidableEq, Repr

/-! ### Reset values -/

/-- R3: the reset form. -/
def Form.initial : Form :=
  { kind := .crawl, top := 0, height := 0, left := 0, right := 0, style := 0 }

/-- R4: the reset motion. -/
def Motion.initial : Motion :=
  { speed := 0, gap := 16, dwell := 300, fade := 0, passLimit := 0, cueColumn := 0 }

/-- R81: the envelope of a new placement. -/
def Envelope.initial : Envelope :=
  { phase := .idle, level := 0, direction := .up, hold := 0 }

/-- R1, R21: a lane after power-on reset and REINIT. -/
def Lane.initial : Lane :=
  { state := .off, form := Form.initial, motion := Motion.initial, pendForm := none,
    pendMotion := none, takeMark := false, fade := 0, resume := .running, motionOn := true,
    offset := 0, passCount := 0, dwellCount := 0, ring := [], placed := [] }

/-- R45: a quote slot after reset. -/
def QuoteSlot.initial : QuoteSlot :=
  { asm := List.replicate 16 0, pend := none, shown := none }

/-- R109: an undefined item. -/
def Item.undefined : Item :=
  { defined := false, source := .text 0, override := none, repeats := false, marker := false,
    cueOut := .none, tag := 0 }

/-- R113: an empty segment. -/
def Segment.empty : Segment :=
  { count := 0, next := none, codes := List.replicate 24 0 }

/-- R117: an undefined glyph. -/
def Glyph.undefined : Glyph := { advance := 0, width := 0, nibbles := [] }

/-- R117: the absent form of a font. -/
def Font.absent : Font :=
  { height := 8, defaultAdvance := 4, glyphs := [(0, { advance := 4, width := 0, nibbles := [] })] }

/-- R119: the color (940, 512, 512). -/
def Color.white : Color := { y := 940, cb := 512, cr := 512 }

/-- R119: the built-in style. -/
def Style.builtIn : Style :=
  { colors := { fill := { y := 64, cb := 512, cr := 512 }, text := Color.white, up := Color.white,
                down := Color.white, flat := Color.white, halt := Color.white },
    flash := { flashUp := Color.white, flashDown := Color.white, alpha := 256, legalize := false,
               attack := 0, decay := 0, release := 0, sustain := 0, hold := 1 },
    width := { font := 0, pad := 4, minWidth := 0, separators := false, percent := false,
               seconds := false } }

/-- R123: midnight. -/
def TimeOfDay.midnight : TimeOfDay := { hours := 0, minutes := 0, seconds := 0 }

/-- R126: a schedule entry after reset. -/
def SchedEntry.initial : SchedEntry :=
  { armed := false, time := TimeOfDay.midnight, daily := false, action := .lane .start, mask := 0,
    arg := 0 }

/-- R131, R173: a capture record that has never been written. -/
def Capture.initial : Capture :=
  { valid := false, overwritten := false, lane := 0, item := none, tag := none, count := 0 }

/-- R131: a cue input after power-on reset. -/
def CueInput.initial : CueInput :=
  { filter := false, edge := .rise, action := .none, mask := 0, last := false, run := 0,
    accepted := false, capture := Capture.initial }

/-- R140: a command slot after power-on reset. -/
def CommandSlot.initial : CommandSlot :=
  { inFlight := false, lo := List.replicate 16 0, hi := List.replicate 16 0 }

/-- The machine right after power-on reset: RESET_N low, every block at its power-on values (R166).
The anchor, flow mode and loader record before RESET_N rises, and the levels of the input pins, are
the model's choice: DESIGN CHOICE, unsafe, notes/assumptions/9.md. -/
def State.reset : State :=
  { pending := []
    out := []
    pins := { resetN := false, killN := true, parity := false, cueIn := Four.all false,
              straps := { anchorSel := 0, flowSel := false } }
    device := .loading
    loader := { status := .loading, reason := none, bus := .idle, staging := [] }
    conf := { anchor := 0x40000000, flow := .hold, stall := Config.stallDefault, decode := none,
              rate := none, reportLine := none }
    lanes := Four.all Lane.initial
    items := []
    segments := []
    fonts := Four.all Font.absent
    styles := { cur := [], pend := [], deflt := [] }
    quotes := []
    clock := { time := TimeOfDay.midnight, acc := 0 }
    schedule := []
    cue := { inputs := Four.all CueInput.initial, lineReg := none, out0 := false, out1 := false,
             latch := false }
    parity := false
    intake := { slots := [], queue := [], reload := none, overrun := 0, lastTag := 0 }
    port := { held := none, waiting := [] }
    own := { writeBack := [], headWritten := false, reports := [] }
    rep := { events := 0, mask := 0, count := 0, taken := false } }

end Sys2Proof.Machine
end

