-- ==== Sys2Proof/Machine/Flags.lean ====
section
/-! DEFINITION. The event bits, their mask and ATTN (R157 to R160). -/

namespace Sys2Proof.Machine

/-- R157: the number of an event is its bit. -/
inductive Event where
  | cmdError
  | overrun
  | laneEmpty (n : Fin 4)
  | laneOff (n : Fin 4)
  | breakIn
  | cueCapture (n : Fin 4)
  | alarm
  | actionRefused
  | loadDone
  | loadFail
  deriving DecidableEq, Repr

/-- R157: the table of event numbers. -/
def Event.number : Event → Nat
  | .cmdError => 0
  | .overrun => 1
  | .laneEmpty n => 2 + n.val
  | .laneOff n => 6 + n.val
  | .breakIn => 10
  | .cueCapture n => 11 + n.val
  | .alarm => 15
  | .actionRefused => 16
  | .loadDone => 17
  | .loadFail => 18

/-- The bit of an event in the 19-bit registers. -/
def Event.bit (e : Event) : BitVec 19 := 1 <<< e.number

/-- R157: a setting of an event bit; sticky. -/
def State.raise (s : State) (e : Event) : State :=
  { s with rep := { s.rep with events := s.rep.events ||| e.bit } }

/-- R157: raise an event where a condition holds. -/
def State.raiseIf (s : State) (c : Bool) (e : Event) : State := if c then s.raise e else s

/-- R158: ATTN is high while an event bit and its mask bit are both 1. -/
def State.attn (s : State) : Bool := (s.rep.events &&& s.rep.mask) != 0

/-- R159: the selected mask bits take the fill. -/
def maskFill (mask selector : BitVec 19) (fill : Bool) : BitVec 19 :=
  if fill then mask ||| selector else mask &&& ~~~selector

/-- R160: the selected event bits become 0. -/
def eventsAck (events selector : BitVec 19) : BitVec 19 := events &&& ~~~selector

end Sys2Proof.Machine
end

