-- ==== Sys2Proof/Machine/Ops.lean ====
section
/-! DEFINITION. The named operations that every block uses: numbered stores, the four lanes and
inputs, bytes and beats, the ports, and handing a result to the write-back queue. -/

namespace Sys2Proof

/-- One of four. -/
def Four.get {α : Type} (f : Four α) (n : Fin 4) : α :=
  match n with
  | 0 => f.e0
  | 1 => f.e1
  | 2 => f.e2
  | 3 => f.e3

/-- Replace one of four. -/
def Four.set {α : Type} (f : Four α) (n : Fin 4) (a : α) : Four α :=
  match n with
  | 0 => { f with e0 := a }
  | 1 => { f with e1 := a }
  | 2 => { f with e2 := a }
  | 3 => { f with e3 := a }

/-- The four in ascending number. -/
def Four.toList {α : Type} (f : Four α) : List α := [f.e0, f.e1, f.e2, f.e3]

/-- The numbers 0 to 3, ascending. -/
abbrev fours : List (Fin 4) := [0, 1, 2, 3]

/-- The number as one of 0 to 3, if it is. -/
def four? (n : Nat) : Option (Fin 4) := if h : n < 4 then some ⟨n, h⟩ else none

/-- R154: the 16-byte-aligned address of a beat. -/
def Beat.addr (b : Beat) : Nat := 16 * b.index.toNat

/-- The byte lanes of a beat: the byte where the enable is set. -/
def Beat.lane (b : Beat) (i : Nat) : Option Byte :=
  if b.enables.getLsbD i then some (b.data.extractLsb' (8 * i) 8) else none

/-- All 16 lanes. -/
def Beat.lanes (b : Beat) : List (Option Byte) := (List.range 16).map b.lane

/-- Whether a lane from `lo` to `hi - 1` is enabled. -/
def Beat.touches (b : Beat) (lo hi : Nat) : Bool :=
  (List.range 16).any fun i => decide (lo ≤ i) && decide (i < hi) && b.enables.getLsbD i

end Sys2Proof

namespace Sys2Proof.Machine

/-! ### Numbered stores -/

/-- The record of a number; `d` where it is not listed. -/
def Store.get {α : Type} (d : α) : Store α → Nat → α
  | [], _ => d
  | (j, v) :: t, k => if j = k then v else Store.get d t k

/-- Replace the record of a number, keeping the numbers rising and defaults unlisted. -/
def Store.put {α : Type} [DecidableEq α] (d : α) : Store α → Nat → α → Store α
  | [], k, v => if v = d then [] else [(k, v)]
  | (j, w) :: t, k, v =>
    if k < j then (if v = d then (j, w) :: t else (k, v) :: (j, w) :: t)
    else if k = j then (if v = d then t else (k, v) :: t)
    else (j, w) :: Store.put d t k v

/-- The canonical form: numbers above `lo` strictly rising, none at its default. -/
def Store.wfAbove {α : Type} [DecidableEq α] (d : α) : Option Nat → Store α → Bool
  | _, [] => true
  | lo, (j, v) :: t =>
    lo.all (fun k => decide (k < j)) && decide (v ≠ d) && Store.wfAbove d (some j) t

/-- The canonical form of a store. -/
def Store.wf {α : Type} [DecidableEq α] (d : α) (m : Store α) : Bool := Store.wfAbove d none m

/-! ### Bytes -/

/-- The little-endian number in the bytes of a list (00_scope.md, Byte order). -/
def leNat : List Byte → Nat
  | [] => 0
  | b :: t => b.toNat + 256 * leNat t

/-- The word at word position `i` of a list of bytes. -/
def wordAt (bs : List Byte) (i : Nat) : Word := BitVec.ofNat 32 (leNat ((bs.drop (4 * i)).take 4))

/-- The four bytes of a word, lowest address first. -/
def wordBytes (w : Word) : List Byte :=
  [w.extractLsb' 0 8, w.extractLsb' 8 8, w.extractLsb' 16 8, w.extractLsb' 24 8]

/-- Bits `lo + n - 1 .. lo` of a word as a number (R172: fields are decoded as unsigned). -/
def bits (w : Word) (lo n : Nat) : Nat := (w.extractLsb' lo n).toNat

/-- R47, R141: byte by byte, an enabled lane replaces the assembly byte. -/
def mergeLanes (asm : List Byte) (lanes : List (Option Byte)) : List Byte :=
  List.zipWith (fun old new => new.getD old) asm lanes

/-! ### Ports -/

/-- Every command begins with nothing driven. -/
def State.quiet (s : State) : State := { s with out := [] }

/-- Drive something on a port. -/
def State.emit (s : State) (e : PortEvent) : State := { s with out := s.out ++ [e] }

/-- Drive a write transaction at the memory port, where it has a beat. -/
def State.emitWrite (s : State) (src : Source) (size : BeatSize) (beats : List Beat) : State :=
  if beats.isEmpty then s else s.emit (.memWrite src size beats)

/-! ### Lanes -/

/-- The lane of a number. -/
def State.lane (s : State) (n : Fin 4) : Lane := s.lanes.get n

/-- Replace a lane. -/
def State.setLane (s : State) (n : Fin 4) (l : Lane) : State :=
  { s with lanes := s.lanes.set n l }

/-- R1: the lane width W. -/
def Form.laneWidth (f : Form) : Nat := f.right - f.left + 1

/-- R1: the lane width under the current form. -/
def Lane.laneWidth (l : Lane) : Nat := l.form.laneWidth

/-- R27: the pixel part of the strip offset. -/
def Lane.offsetPx (l : Lane) : Nat := l.offset / 256

/-- R27: the fraction of the strip offset. -/
def Lane.fraction (l : Lane) : Nat := l.offset % 256

/-- R21: the placed count p. -/
def Lane.placedCount (l : Lane) : Nat := l.placed.length

/-- R22: the placed entries, item and placement record, head first. -/
def Lane.entries (l : Lane) : List (Nat × Placement) := l.ring.zip l.placed

/-! ### The stores of the part -/

/-- The item record of an index (R109). -/
def State.item (s : State) (i : Nat) : Item := Store.get Item.undefined s.items i

/-- The text segment of an index (R113). -/
def State.segment (s : State) (i : Nat) : Segment := Store.get Segment.empty s.segments i

/-- The quote slot of a number (R45). -/
def State.quote (s : State) (n : Nat) : QuoteSlot := Store.get QuoteSlot.initial s.quotes n

/-- Replace a quote slot. -/
def State.setQuote (s : State) (n : Nat) (q : QuoteSlot) : State :=
  { s with quotes := Store.put QuoteSlot.initial s.quotes n q }

/-- The current copy of a style (R119). -/
def State.style (s : State) (i : Nat) : Style := Store.get Style.builtIn s.styles.cur i

/-- The pending copy of a style (R119). -/
def State.pendingStyle (s : State) (i : Nat) : Style := Store.get Style.builtIn s.styles.pend i

/-- A schedule entry (R126). -/
def State.schedEntry (s : State) (i : Nat) : SchedEntry :=
  Store.get SchedEntry.initial s.schedule i

/-- A command slot (R140). -/
def State.slot (s : State) (n : Nat) : CommandSlot :=
  Store.get CommandSlot.initial s.intake.slots n

/-- Replace a command slot. -/
def State.setSlot (s : State) (n : Nat) (c : CommandSlot) : State :=
  { s with intake := { s.intake with slots := Store.put CommandSlot.initial s.intake.slots n c } }

/-- R149: a slot becomes FREE. -/
def State.freeSlot (s : State) (n : Nat) : State :=
  s.setSlot n { s.slot n with inFlight := false }

/-- R112: whether an item is placed in any lane. -/
def State.itemPlaced (s : State) (i : Nat) : Bool :=
  s.lanes.toList.any fun l => l.entries.any fun e => e.1 == i

/-- R23: whether an item stands in the ring of any lane. -/
def State.itemInRing (s : State) (i : Nat) : Bool :=
  s.lanes.toList.any fun l => l.ring.contains i

/-- R121: a style is in use as the entry style of a placed entry, or as the current lane style of a
lane whose placed count is at least 1. -/
def State.styleInUse (s : State) (k : Nat) : Bool :=
  s.lanes.toList.any fun l =>
    l.placed.any (fun p => p.style == k) || (l.form.style == k && !l.placed.isEmpty)

/-! ### Results -/

/-- R148, R156: entries of the write-back queue that count as taken: those in it, and the one kept
for a RELOAD under way. -/
def State.writeBackTaken (s : State) : Nat :=
  s.own.writeBack.length + (if s.intake.reload.isSome then 1 else 0)

/-- R147: whether the write-back queue has room for a sender that holds no kept entry. -/
def State.resultRoom (s : State) : Bool := decide (s.writeBackTaken < Config.writeBackDepth)

/-- R149, R156, R157: a result word handed to the write-back queue; other than OK it sets
CMD_ERROR. -/
def State.handOver (s : State) (r : ResultWord) : State :=
  State.raiseIf { s with own := { s.own with writeBack := s.own.writeBack ++ [r] } }
    (r.result != .ok) .cmdError

/-- The command code of a command (12.2, close word bits 7..0). -/
def Command.code (c : Command) : Nat := bits c.close 0 8

/-- The short argument of a command (12.2, close word bits 15..8). -/
def Command.short (c : Command) : Nat := bits c.close 8 8

/-- The tag of a command (12.2, close word bits 31..16). -/
def Command.tag (c : Command) : BitVec 16 := c.close.extractLsb' 16 16

/-- R149: the result word that answers a command. -/
def Command.answer (c : Command) (slot : Nat) (r : ResultCode) : ResultWord :=
  { slot := slot, code := c.close.extractLsb' 0 8, result := r, tag := c.tag }

end Sys2Proof.Machine
end

