-- ==== Sys2Proof/Machine/Lanes.lean ====
section
/-! DEFINITION. Lane parameters, the lane state machine and the lane actions that commands, the
schedule and the cue inputs share (spec/01_lanes_and_their_states.md; R129). -/

namespace Sys2Proof.Machine

/-! ### Frame lines and the overlap check (R6) -/

/-- R1: whether a frame line is one of a form's; an unformed lane has none. -/
def Form.hasLine (f : Form) (line : Nat) : Bool :=
  decide (f.top ≤ line) && decide (line < f.top + f.height)

/-- R6: whether two forms share a frame line. -/
def Form.sharesLine (f g : Form) : Bool :=
  decide (0 < f.height) && decide (0 < g.height) && decide (f.top < g.top + g.height) &&
    decide (g.top < f.top + f.height)

/-- R6: whether a form shares a frame line with a lane's current or pending form, the lane being
outside OFF. -/
def Form.meetsLane (f : Form) (l : Lane) : Bool :=
  l.state != .off && (f.sharesLine l.form || l.pendForm.any fun g => f.sharesLine g)

/-- R6: the overlap check of a form carried by, or current on, lane `n`. -/
def State.overlaps (s : State) (n : Fin 4) (f : Form) : Bool :=
  fours.any fun m => m != n && f.meetsLane (s.lane m)

/-! ### Entering OFF, KILLED and the take -/

/-- R17: the effects of entering OFF; the ring and the current parameters are kept. -/
def Lane.enterOff (l : Lane) : Lane :=
  { l with state := .off, placed := [], offset := 0, fade := 0, passCount := 0, dwellCount := 0,
           resume := .running, motionOn := true, pendForm := none, pendMotion := none,
           takeMark := false }

/-- R18: the setting of the kill latch reaches a lane. -/
def Lane.kill (l : Lane) : Lane :=
  match l.state with
  | .off => l
  | .killed => l
  | .armed => l.enterOff
  | .running => { l with state := .killed }
  | .held => { l with state := .killed }
  | .draining => { l with state := .killed }
  | .fadingOut => { l with state := .killed }

/-- R4: the cue column clamped to W - 1 of a form. -/
def Motion.clampCue (m : Motion) (f : Form) : Motion :=
  { m with cueColumn := min m.cueColumn (f.laneWidth - 1) }

/-- R5, R4, R9: a form becomes current, and the current cue column is clamped to its width. -/
def Lane.setForm (l : Lane) (f : Form) : Lane :=
  { l with form := f, motion := l.motion.clampCue f, pendForm := none }

/-- R5, R9: a motion becomes current, its cue column clamped to the current width. -/
def Lane.setMotion (l : Lane) (m : Motion) : Lane :=
  { l with motion := m.clampCue l.form, pendMotion := none }

/-- R9: the take at a field start. -/
def Lane.takeApply (l : Lane) : Lane :=
  if l.takeMark then
    let l1 := match l.pendForm with
      | some f => l.setForm f
      | none => l
    let l2 := match l1.pendMotion with
      | some m => l1.setMotion m
      | none => l1
    { l2 with takeMark := false }
  else l

/-- R5: an accepted LANE_FORM, or the form half of SET_STYLE, by the lane's state. -/
def Lane.offerForm (l : Lane) (f : Form) : Lane :=
  if l.state = .off then l.setForm f else { l with pendForm := some f }

/-- R5: an accepted LANE_MOTION by the lane's state. -/
def Lane.offerMotion (l : Lane) (m : Motion) : Lane :=
  if l.state = .off then l.setMotion m else { l with pendMotion := some m }

/-- R129: SET_STYLE on a lane. -/
def Lane.setStyle (l : Lane) (k : Nat) : Lane :=
  if l.state = .off then { l with form := { l.form with style := k } }
  else { l with pendForm := some { l.pendForm.getD l.form with style := k } }

/-! ### The fade (R14, R16) -/

/-- R16: ceil(256 / F), for F above 0. -/
def fadeIncrement (f : Nat) : Nat := (256 + f - 1) / f

/-- R16: one step up. -/
def fadeUp (f g : Nat) : Nat := if f = 0 then 256 else min 256 (g + fadeIncrement f)

/-- R16: one step down. -/
def fadeDown (f g : Nat) : Nat := if f = 0 then 0 else g - fadeIncrement f

/-- R16: the fade step of a lane by its state at that point. -/
def Lane.fadeStep (l : Lane) : Lane :=
  match l.state with
  | .running => { l with fade := fadeUp l.motion.fade l.fade }
  | .held => { l with fade := fadeUp l.motion.fade l.fade }
  | .draining => { l with fade := fadeUp l.motion.fade l.fade }
  | .fadingOut => { l with fade := fadeDown l.motion.fade l.fade }
  | .off => l
  | .armed => l
  | .killed => l

/-- R14: an ARMED lane becomes RUNNING at a field start. -/
def Lane.begin (l : Lane) : Lane :=
  if l.state = .armed then
    { l with state := .running, fade := if l.motion.fade = 0 then 256 else 0 }
  else l

/-- R15: the drain check. -/
def Lane.drainCheck (l : Lane) : Lane :=
  if l.state = .draining ∧ l.placed = [] then { l with state := .fadingOut, motionOn := true } else l

/-- R17: the end of a fade-out: whether the lane enters OFF after its fade step. -/
def Lane.fadeEnds (l : Lane) : Bool := l.state == .fadingOut && l.fade == 0

/-! ### Lane actions -/

/-- R10: START on one lane. `none` is an acceptance. -/
def State.startLane (s : State) (n : Fin 4) : State × Option ResultCode :=
  let l := s.lane n
  if s.cue.latch then (s, some .killed)
  else match l.state with
    | .off =>
      if l.form.height = 0 then (s, some .badState)
      else if s.overlaps n l.form then (s, some .overlap)
      else (s.setLane n { l with state := .armed }, none)
    | .armed => (s, none)
    | .running => (s, none)
    | .draining => (s.setLane n { l with state := .running }, none)
    | .fadingOut => (s.setLane n { l with state := .running, motionOn := true }, none)
    | .held => (s, some .badState)
    | .killed => (s, some .badState)

/-- R11: STOP with mode DRAIN on one lane. -/
def State.stopDrainLane (s : State) (n : Fin 4) : State × Option ResultCode :=
  let l := s.lane n
  match l.state with
  | .off => (s, none)
  | .armed => (s.setLane n l.enterOff, none)
  | .running => (s.setLane n { l with state := .draining }, none)
  | .draining => (s, some .badState)
  | .held => (s.setLane n { l with resume := .draining }, none)
  | .fadingOut => (s, some .badState)
  | .killed => (s, some .badState)

/-- R11: STOP with mode FADE on one lane. -/
def State.stopFadeLane (s : State) (n : Fin 4) : State × Option ResultCode :=
  let l := s.lane n
  match l.state with
  | .off => (s, none)
  | .armed => (s.setLane n l.enterOff, none)
  | .running => (s.setLane n { l with state := .fadingOut, motionOn := true }, none)
  | .draining => (s.setLane n { l with state := .fadingOut, motionOn := true }, none)
  | .held => (s.setLane n { l with state := .fadingOut, motionOn := false }, none)
  | .fadingOut => (s, some .badState)
  | .killed => (s, some .badState)

/-- R12: HOLD on one lane. -/
def State.holdLane (s : State) (n : Fin 4) : State × Option ResultCode :=
  let l := s.lane n
  match l.state with
  | .running => (s.setLane n { l with state := .held, resume := .running }, none)
  | .draining => (s.setLane n { l with state := .held, resume := .draining }, none)
  | .off => (s, some .badState)
  | .armed => (s, some .badState)
  | .held => (s, some .badState)
  | .fadingOut => (s, some .badState)
  | .killed => (s, some .badState)

/-- R12: the state a resume target names. -/
def Resume.state : Resume → LaneState
  | .running => .running
  | .draining => .draining

/-- R12: RESUME on one lane. -/
def State.resumeLane (s : State) (n : Fin 4) : State × Option ResultCode :=
  let l := s.lane n
  match l.state with
  | .held => (s.setLane n { l with state := l.resume.state }, none)
  | .off => (s, some .badState)
  | .armed => (s, some .badState)
  | .running => (s, some .badState)
  | .draining => (s, some .badState)
  | .fadingOut => (s, some .badState)
  | .killed => (s, some .badState)

/-- R7: TAKE on one lane. -/
def State.takeLane (s : State) (n : Fin 4) : State × Option ResultCode :=
  let l := s.lane n
  if l.state = .off then (s, none) else (s.setLane n { l with takeMark := true }, none)

/-- R129: a lane action on one lane, as the matching command would be. -/
def State.actOnLane (s : State) (a : LaneAction) (n : Fin 4) : State × Option ResultCode :=
  match a with
  | .start => s.startLane n
  | .stopDrain => s.stopDrainLane n
  | .stopFade => s.stopFadeLane n
  | .hold => s.holdLane n
  | .resume => s.resumeLane n
  | .take => s.takeLane n

/-- R139: RESTORE on one lane, with target RUNNING or HELD. R175: of the two, the target HELD alone sets
the resume target, which else stays as the lane last set it. -/
def Lane.restore (l : Lane) (toRunning : Bool) : Lane :=
  if l.state = .killed then
    { l with state := if toRunning then .running else .held,
             resume := if toRunning then l.resume else .running,
             fade := 0, motionOn := true }
  else l

/-- R2: the lanes a mask names, ascending. -/
def maskLanes (mask : BitVec 4) : List (Fin 4) := fours.filter fun n => mask.getLsbD n.val

/-- R2: one lane after another, each accepted or refused by the state at that moment; the answer is
the refusal of the lowest-numbered lane that refused. -/
def State.overLanes (act : State → Fin 4 → State × Option ResultCode) :
    State → List (Fin 4) → State × Option ResultCode
  | s, [] => (s, none)
  | s, n :: t =>
    let r := act s n
    let r' := State.overLanes act r.1 t
    (r'.1, r.2 <|> r'.2)

/-- R129, R133: a fired action on the lanes of a mask; ACTION_REFUSED is set where a lane refuses. -/
def State.fireOnLanes (s : State) (a : LaneAction) (mask : BitVec 4) : State :=
  let r := State.overLanes (fun s n => s.actOnLane a n) s (maskLanes mask)
  r.1.raiseIf r.2.isSome .actionRefused

/-! ### The kill latch's share -/

/-- R18: every lane controller acts at once. -/
def State.killLanes (s : State) : State :=
  { s with lanes := ⟨s.lanes.e0.kill, s.lanes.e1.kill, s.lanes.e2.kill, s.lanes.e3.kill⟩ }

end Sys2Proof.Machine
end

