-- ==== Sys2Proof/Machine/Clock.lean ====
section
/-! DEFINITION. The station clock and the schedule (spec/08, 8.1 and 8.2). -/

namespace Sys2Proof.Machine

/-! ### BCD times (00_scope.md, Time of day; 12.2) -/

/-- R125: both digits of a BCD byte are at most 9. -/
def bcdDigits (b : Byte) : Bool := decide (b.toNat % 16 ≤ 9) && decide (b.toNat / 16 ≤ 9)

/-- R125: the ranges of a BCD time: digits at most 9, hours at most 23, minutes and seconds at most
59. In BCD the order of the bytes is the order of the values. -/
def TimeOfDay.valid (t : TimeOfDay) : Bool :=
  bcdDigits t.hours && bcdDigits t.minutes && bcdDigits t.seconds &&
    decide (t.hours.toNat ≤ 0x23) && decide (t.minutes.toNat ≤ 0x59) && decide (t.seconds.toNat ≤ 0x59)

/-- One more, in BCD. -/
def bcdSucc (b : Byte) : Byte := if b.toNat % 16 = 9 then b + 7 else b + 1

/-- R124: the time of day advances by one second, with its carries. -/
def TimeOfDay.succ (t : TimeOfDay) : TimeOfDay :=
  if t.seconds = 0x59 then
    if t.minutes = 0x59 then
      if t.hours = 0x23 then TimeOfDay.midnight
      else { hours := bcdSucc t.hours, minutes := 0, seconds := 0 }
    else { t with minutes := bcdSucc t.minutes, seconds := 0 }
  else { t with seconds := bcdSucc t.seconds }

/-- 12.2: the BCD time of a word: seconds in bits 7..0, minutes in 15..8, hours in 23..16. -/
def timeOfWord (w : Word) : TimeOfDay :=
  { hours := w.extractLsb' 16 8, minutes := w.extractLsb' 8 8, seconds := w.extractLsb' 0 8 }

/-- 12.5: the word of a BCD time. -/
def TimeOfDay.word (t : TimeOfDay) : Word := (0 : Byte) ++ t.hours ++ t.minutes ++ t.seconds

/-! ### The schedule (R128, R129) -/

/-- R129: SET_STYLE on the lanes of a mask; it is accepted on every lane. -/
def State.setStyleOnLanes (s : State) (k : Nat) (lanes : List (Fin 4)) : State :=
  lanes.foldl (fun s n => s.setLane n ((s.lane n).setStyle k)) s

/-- R129: the action of a fired entry on all its lanes. -/
def State.fireEntry (s : State) (e : SchedEntry) : State :=
  match e.action with
  | .lane a => s.fireOnLanes a e.mask
  | .setStyle => s.setStyleOnLanes e.arg (maskLanes e.mask)

/-- R128: whether an entry fires at a time. -/
def SchedEntry.due (e : SchedEntry) (t : TimeOfDay) : Bool := e.armed && decide (e.time = t)

/-- Replace a schedule entry. -/
def State.setSchedEntry (s : State) (i : Nat) (e : SchedEntry) : State :=
  { s with schedule := Store.put SchedEntry.initial s.schedule i e }

/-- R128: entry `i` fires if it is due: its action is applied, and ONCE disarms it. -/
def State.fireIfDue (s : State) (i : Nat) : State :=
  let e := s.schedEntry i
  if e.due s.clock.time then
    (if e.daily then s else s.setSchedEntry i { e with armed := false }).fireEntry e
  else s

/-- R128: the entries due at the clock's time fire in entry-number order, and ALARM is set once. -/
def State.fireSchedule (s : State) : State :=
  let any := (List.range Config.scheduleCount).any fun i => (s.schedEntry i).due s.clock.time
  ((List.range Config.scheduleCount).foldl State.fireIfDue s).raiseIf any .alarm

/-! ### The clock (R124) -/

/-- R124: the second tick, with the schedule's share. -/
def State.tick (s : State) : State :=
  State.fireSchedule { s with clock := { s.clock with time := s.clock.time.succ } }

/-- R124: one accumulation at a field start, with a tick where the sum reaches N. -/
def State.accumulate (s : State) : State :=
  match s.conf.rate with
  | none => s
  | some r =>
    let sum := s.clock.acc + r.d
    if r.n ≤ sum then State.tick { s with clock := { s.clock with acc := sum - r.n } }
    else { s with clock := { s.clock with acc := sum } }

end Sys2Proof.Machine
end

