-- ==== Sys2Proof/Machine/Envelope.lean ====
section
/-! DEFINITION. Highlight envelopes (spec/05_highlight_envelopes.md). -/

namespace Sys2Proof.Machine

/-- R82: the nominal fields of an attack, by index. -/
def attackFields : List Nat := [1, 2, 3, 4, 6, 8, 10, 12, 15, 20, 30, 45, 60, 90, 150, 240]

/-- R82: the nominal fields of a decay or release, by index. -/
def decayFields : List Nat := [1, 3, 6, 9, 12, 15, 20, 25, 30, 45, 90, 150, 180, 300, 450, 900]

/-- R82: the step ceil(65280 / N) of a table's index. -/
def rateStep (fields : List Nat) (index : Nat) : Nat :=
  let n := fields.getD index 1
  (Config.envelopePeak + n - 1) / n

/-- R82: the attack step of an index. -/
def attackStep (index : Nat) : Nat := rateStep attackFields index

/-- R82: the decay and release step of an index. -/
def decayStep (index : Nat) : Nat := rateStep decayFields index

/-- R83: the sustain target. -/
def sustainTarget (sustain : Nat) : Nat := sustain * 4352

/-- R83: the hold setting, 0 taken as 1. -/
def holdSetting (k : Style) : Nat := if k.flash.hold = 0 then 1 else k.flash.hold

/-- R84: a trigger. -/
def Envelope.trigger (e : Envelope) (k : Style) (d : Direction) : Envelope :=
  { e with phase := .attack, direction := d, hold := holdSetting k }

/-- R85: whether the phase is one that a hold gates and a release ends. -/
def Phase.gated : Phase → Bool
  | .attack => true
  | .decay => true
  | .sustain => true
  | .idle => false
  | .release => false

/-- R85: a release. -/
def Envelope.letGo (e : Envelope) : Envelope :=
  if e.phase.gated then { e with phase := .release, hold := 0 } else e

/-- R86: the phase step. -/
def Envelope.phaseStep (e : Envelope) (k : Style) : Envelope :=
  match e.phase with
  | .idle => e
  | .attack =>
    let lv := min Config.envelopePeak (e.level + attackStep k.flash.attack)
    { e with level := lv, phase := if lv = Config.envelopePeak then .decay else .attack }
  | .decay =>
    let t := sustainTarget k.flash.sustain
    let lv := if t < e.level then max t (e.level - decayStep k.flash.decay) else e.level
    { e with level := lv, phase := if lv ≤ t then .sustain else .decay }
  | .sustain => e
  | .release =>
    let lv := e.level - decayStep k.flash.release
    { e with level := lv, phase := if lv = 0 then .idle else .release }

/-- R87: the hold countdown after the phase step. -/
def Envelope.holdStep (e : Envelope) : Envelope :=
  if e.phase.gated then
    if e.hold ≤ 1 then { e with hold := 0, phase := .release } else { e with hold := e.hold - 1 }
  else e

/-- R88: one envelope step, the phase step and then the hold countdown. -/
def Envelope.step (e : Envelope) (k : Style) : Envelope := (e.phaseStep k).holdStep

end Sys2Proof.Machine
end

