-- ==== Sys2Proof/Machine/Formatter.lean ====
section
/-! DEFINITION. Text chains (R114) and the formatter (spec/04_quote_text.md): the text of a quote and
of the clock, the glyph run and the width. The formatter holds no state; every function here answers
from its inputs (R66). -/

namespace Sys2Proof.Machine

/-! ### The text of a TEXT item -/

/-- R114: the segments the reading takes, at most `fuel` of them, following the next links. -/
def State.chain (s : State) : Nat → Nat → List Nat
  | 0, _ => []
  | fuel + 1, k =>
    k :: (match (s.segment k).next with
      | none => []
      | some k' => State.chain s fuel k')

/-- R114: at most ten segments are read. -/
def State.textSegments (s : State) (head : Nat) : List Nat := s.chain 10 head

/-- R114: the text of a chain, the first count codes of each segment read. -/
def State.chainText (s : State) (head : Nat) : List Byte :=
  (s.textSegments head).flatMap fun k => (s.segment k).codes.take (s.segment k).count

/-! ### Digits -/

/-- The digit code of a digit (R76: 0x30..0x39). -/
def digitCode (d : Nat) : Byte := BitVec.ofNat 8 (0x30 + d)

/-- The decimal digits of `n` without leading zeros, "0" for 0; `fuel` bounds their number. -/
def decimalDigits : Nat → Nat → List Byte
  | 0, _ => []
  | fuel + 1, n =>
    if n < 10 then [digitCode n] else decimalDigits fuel (n / 10) ++ [digitCode (n % 10)]

/-- The integer part of a figure (R69): twenty digits are more than any price or change has. -/
def integerDigits (n : Nat) : List Byte := decimalDigits 20 n

/-- Exactly `d` decimal digits, zeros added at the left (R69). -/
def fixedDigits : Nat → Nat → List Byte
  | 0, _ => []
  | d + 1, n => fixedDigits d (n / 10) ++ [digitCode (n % 10)]

/-- R70: a "," between each group of three digits counted from the right end. -/
def groupThrees : List Byte → List Byte
  | [] => []
  | c :: t => if !t.isEmpty && t.length % 3 == 0 then c :: 0x2C :: groupThrees t
              else c :: groupThrees t

/-- R69, R71: a magnitude with `d` decimals; `sep` groups its integer part (R70). -/
def magnitudeText (sep : Bool) (d m : Nat) : List Byte :=
  let int := integerDigits (m / 10 ^ d)
  (if sep then groupThrees int else int) ++
    (if d = 0 then [] else 0x2E :: fixedDigits d (m % 10 ^ d))

/-- R69, R70: the price. -/
def priceText (sep : Bool) (d : Nat) (v : Int) : List Byte :=
  (if v < 0 then [0x2D] else []) ++ magnitudeText sep d v.natAbs

/-- R71, R75: the sign of a change or percent figure. -/
def signText (c : Int) : List Byte := if 0 < c then [0x2B] else if c < 0 then [0x2D] else []

/-- R71: the change. -/
def changeText (d : Nat) (c : Int) : List Byte := signText c ++ magnitudeText false d c.natAbs

/-- R72: the arrow code. -/
def arrowCode (st : QuoteStatus) (c : Int) : Byte :=
  match st with
  | .halted => 0x1D
  | _ => if 0 < c then 0x1E else if c < 0 then 0x1F else 0x1D

/-- R74: hundredths of a percent of the previous price, rounded half away from zero and saturated.
`prev` is positive. -/
def percentFigure (c prev : Int) : Int :=
  let q := (c * 10000).natAbs
  let m := (2 * q + prev.natAbs) / (2 * prev.natAbs)
  let p : Int := if c < 0 then - (m : Int) else m
  if 99999 < p then 99999 else if p < -99999 then -99999 else p

/-- R75: the percent figure. -/
def percentText (p : Int) : List Byte :=
  signText p ++ integerDigits (p.natAbs / 100) ++ 0x2E :: fixedDigits 2 (p.natAbs % 100)

/-- R73, R74: the percent part with the space before it, where it stands. -/
def percentPart (v : QuoteValue) (percentFlag : Bool) : List Byte :=
  let prev := v.price - v.change
  if v.percent && percentFlag && decide (0 < prev) then
    [0x20, 0x28] ++ percentText (percentFigure v.change prev) ++ [0x25, 0x29]
  else []

/-- R68: the text of a quote value. -/
def quoteText (v : QuoteValue) (separators percentFlag : Bool) : List Byte :=
  (if v.symbol.isEmpty then [] else v.symbol ++ [0x20]) ++
    priceText separators v.decimals v.price ++
    [0x20, arrowCode v.status v.change] ++ changeText v.decimals v.change ++
    percentPart v percentFlag

/-! ### Glyphs and runs -/

/-- R66: a glyph placement: the code drawn, the position of its first column, its advance. -/
structure GlyphPlace where
  code    : Byte
  pos     : Nat
  advance : Nat
  deriving DecidableEq, Repr

/-- A glyph of a font; unlisted glyphs are undefined (R117). -/
def Font.glyph (f : Font) (code : Byte) : Glyph := Store.get Glyph.undefined f.glyphs code.toNat

/-- R76: the code drawn for a code: itself where the font defines it, else 0x00. -/
def Font.drawn (f : Font) (code : Byte) : Byte := if (f.glyph code).advance = 0 then 0 else code

/-- R76: the advance a code takes after substitution. -/
def Font.advance (f : Font) (code : Byte) : Nat := (f.glyph (f.drawn code)).advance

/-- R77: the glyph run of a text, one glyph after another from a position. -/
def Font.layout (f : Font) : Nat → List Byte → List GlyphPlace
  | _, [] => []
  | pos, c :: t =>
    { code := f.drawn c, pos := pos, advance := f.advance c } :: Font.layout f (pos + f.advance c) t

/-- The sum of the advances of a text (R77). -/
def Font.textAdvance (f : Font) : List Byte → Nat
  | [] => 0
  | c :: t => f.advance c + Font.textAdvance f t

/-- R79: the digit cell, the largest advance among the ten digit codes. -/
def Font.digitCell (f : Font) : Nat :=
  ((List.range 10).map fun d => f.advance (digitCode d)).foldl max 0

/-- R78: the codes of the clock, HH:MM or HH:MM:SS. -/
def clockText (t : TimeOfDay) (seconds : Bool) : List Byte :=
  let two (b : Byte) := [digitCode (b.toNat / 16), digitCode (b.toNat % 16)]
  two t.hours ++ [0x3A] ++ two t.minutes ++ (if seconds then 0x3A :: two t.seconds else [])

/-- R79: the glyph run of the clock: each digit centered in its cell, each colon at its advance. -/
def Font.clockLayout (f : Font) : Nat → List Byte → List GlyphPlace
  | _, [] => []
  | pos, c :: t =>
    if c = 0x3A then
      { code := f.drawn c, pos := pos, advance := f.advance c } ::
        Font.clockLayout f (pos + f.advance c) t
    else
      { code := f.drawn c, pos := pos + (f.digitCell - f.advance c) / 2, advance := f.advance c } ::
        Font.clockLayout f (pos + f.digitCell) t

/-- R79: the width of the clock's cells and colons. -/
def Font.clockAdvance (f : Font) : List Byte → Nat
  | [] => 0
  | c :: t => (if c = 0x3A then f.advance c else f.digitCell) + Font.clockAdvance f t

/-- The font a style names (R119: 0..3). -/
def State.fontOf (s : State) (k : Style) : Font := s.fonts.get ((four? k.width.font).getD 0)

/-! ### The answers of the formatter -/

/-- R77: the width of a TEXT entry with this text. -/
def State.textWidth (s : State) (k : Style) (text : List Byte) : Nat :=
  2 * k.width.pad + (s.fontOf k).textAdvance text

/-- R77, R80: the width of a quote value under a style, at placement and in the fit check alike. -/
def State.quoteWidth (s : State) (k : Style) (v : QuoteValue) : Nat :=
  max (s.textWidth k (quoteText v k.width.separators k.width.percent)) k.width.minWidth

/-- R79: the width of the clock under a style. -/
def State.clockWidth (s : State) (k : Style) : Nat :=
  2 * k.width.pad + (s.fontOf k).clockAdvance (clockText s.clock.time k.width.seconds)

/-- R37, R66: the width the formatter gives for a source as it stands. A quote slot without a shown
value is skipped before any width is asked for (R36). -/
def State.sourceWidth (s : State) (k : Style) (src : ItemSource) : Nat :=
  match src with
  | .text head => s.textWidth k (s.chainText head)
  | .quote n =>
    match (s.quote n).shown with
    | some v => s.quoteWidth k v
    | none => 1
  | .clock => s.clockWidth k

/-- R66, R100: the glyph run the formatter gives for a source as it stands. -/
def State.sourceRun (s : State) (k : Style) (src : ItemSource) : List GlyphPlace :=
  let f := s.fontOf k
  match src with
  | .text head => f.layout k.width.pad (s.chainText head)
  | .quote n =>
    match (s.quote n).shown with
    | some v => f.layout k.width.pad (quoteText v k.width.separators k.width.percent)
    | none => []
  | .clock => f.clockLayout k.width.pad (clockText s.clock.time k.width.seconds)

end Sys2Proof.Machine
end

