-- ==== Sys2Proof/Machine/Strip.lean ====
section
/-! DEFINITION. The crawl strip (spec/02_the_crawl_strip.md): a lane's field start work, step by
step in the order of R8, R28 and R41, and the cue-out actions it hands to the cue unit (R136). -/

namespace Sys2Proof.Machine

/-! ### States of the strip work (R8) -/

/-- R28: the states in which a lane takes strip work. -/
def LaneState.works : LaneState → Bool
  | .running => true
  | .held => true
  | .draining => true
  | .fadingOut => true
  | .off => false
  | .armed => false
  | .killed => false

/-- R29, R42: whether the strip moves, or the dwell counts, in a lane's state. -/
def Lane.moves (l : Lane) : Bool :=
  match l.state with
  | .running => true
  | .draining => true
  | .fadingOut => l.motionOn
  | .held => false
  | .off => false
  | .armed => false
  | .killed => false

/-- R35: whether the place step is taken. -/
def Lane.places (l : Lane) : Bool :=
  match l.state with
  | .running => true
  | .held => l.resume == .running
  | .off => false
  | .armed => false
  | .draining => false
  | .fadingOut => false
  | .killed => false

/-! ### Passes, retirement and skipping (R31 to R33, R36) -/

/-- R32: the pass limit is reached by a count. -/
def Motion.limitReached (m : Motion) (count : Nat) : Bool :=
  m.passLimit != 0 && decide (m.passLimit ≤ count)

/-- R32: the change of state when the pass limit is reached. -/
def Lane.passLimit (l : Lane) : Lane :=
  match l.state with
  | .running => { l with state := .draining }
  | .held => { l with resume := .draining }
  | .draining => l
  | .fadingOut => l
  | .off => l
  | .armed => l
  | .killed => l

/-- R32: a marker retires and the pass counter counts one pass. -/
def Lane.countPass (l : Lane) : Lane :=
  let c := min 255 (l.passCount + 1)
  if l.motion.limitReached c then { l.passLimit with passCount := 0 } else { l with passCount := c }

/-- R31: the head placed entry retires. The second answer tells whether the ring was emptied by it
(R33). -/
def Lane.retireHead (items : Store Item) (l : Lane) : Lane × Bool :=
  match l.ring, l.placed with
  | e :: ring, p :: placed =>
    let it := Store.get Item.undefined items e
    let back := it.repeats && !p.noRepeat
    let l1 := { l with ring := if back then ring ++ [e] else ring, placed := placed }
    (if it.marker then l1.countPass else l1, !back && ring.isEmpty)
  | _, _ => (l, false)

/-- R31: whether the head lies wholly left of the lane's left edge. -/
def Lane.headGone (l : Lane) : Bool :=
  match l.placed with
  | [] => false
  | p :: _ => decide (p.start + p.width ≤ (l.offsetPx : Int))

/-- R31: the retire step repeats the test on each new head; `fuel` bounds the placed count. -/
def Lane.retireLoop (items : Store Item) : Nat → Lane → Lane × Bool
  | 0, l => (l, false)
  | fuel + 1, l =>
    if l.headGone then
      let r := l.retireHead items
      let r' := Lane.retireLoop items fuel r.1
      (r'.1, r.2 || r'.2)
    else (l, false)

/-- R36: an examined entry is skipped when it has nothing to show. -/
def State.skips (s : State) (it : Item) : Bool :=
  match it.source with
  | .text head => (s.chainText head).isEmpty
  | .quote n =>
    match (s.quote n).shown with
    | none => true
    | some v => v.status == .closed
  | .clock => false

/-- R36: the entry at position p is skipped; the second answer tells whether the ring was emptied. -/
def Lane.skipEntry (l : Lane) (e : Nat) (it : Item) : Lane × Bool :=
  let rest := l.ring.eraseIdx l.placedCount
  if it.repeats then ({ l with ring := rest ++ [e] }, false) else ({ l with ring := rest }, rest.isEmpty)

/-! ### The steps of a CRAWL lane (R29 to R35) -/

/-- R30: the rebase. -/
def Lane.rebase (l : Lane) : Lane :=
  { l with offset := l.offset - 256 * Config.rebasePixels,
           placed := l.placed.map fun p => { p with start := p.start - (Config.rebasePixels : Int) } }

/-- R34: the screen left edge of a placed entry. -/
def Lane.edge (l : Lane) (p : Placement) : Int := p.start - (l.offsetPx : Int)

/-- R34: the cue-out actions of the entries whose left edge has crossed the cue column, in
placed-run order. -/
def Lane.crossings (items : Store Item) (l : Lane) : List CueOut :=
  l.entries.filterMap fun e =>
    if (l.motion.cueColumn : Int) < e.2.lastEdge ∧ l.edge e.2 ≤ (l.motion.cueColumn : Int) then
      some (Store.get Item.undefined items e.1).cueOut
    else none

/-- R34: each entry's last screen left edge becomes its present one. -/
def Lane.noteEdges (l : Lane) : Lane :=
  { l with placed := l.placed.map fun p => { p with lastEdge := l.edge p } }

/-- R35: the candidate start of the entry at position p, none where there is no room. `floor` is the
entry floor. -/
def Lane.candidate (l : Lane) (floor : Int) : Option Int :=
  let right : Int := (l.offsetPx : Int) + (l.laneWidth : Int)
  match l.placed.getLast? with
  | none => some right
  | some p =>
    let after : Int := p.start + p.width + (l.motion.gap : Int)
    if after ≤ right then some (max after floor) else none

/-- R37: the entry style of an item on a lane. -/
def Lane.entryStyle (l : Lane) (it : Item) : Nat := it.override.getD l.form.style

/-- R35, R37: the entry at position p is placed at a strip start, with its width frozen. -/
def State.placeAt (s : State) (l : Lane) (it : Item) (start : Int) : Lane :=
  let k := l.entryStyle it
  { l with placed := l.placed ++
      [{ start := start, width := s.sourceWidth (s.style k) it.source, style := k,
         env := Envelope.initial, lastEdge := (l.laneWidth : Int), noRepeat := false }] }

/-- R35: the place step of a CRAWL lane; the first argument counts the examinations left. -/
def State.placeLoop (s : State) (floor : Int) : Nat → Lane → Lane × Bool
  | 0, l => (l, false)
  | u + 1, l =>
    if Config.placedMax ≤ l.placedCount then (l, false)
    else match l.ring[l.placedCount]? with
      | none => (l, false)
      | some e =>
        if s.skips (s.item e) then
          let r := l.skipEntry e (s.item e)
          let r' := State.placeLoop s floor u r.1
          (r'.1, r.2 || r'.2)
        else match l.candidate floor with
          | none => (l, false)
          | some start => State.placeLoop s floor u (s.placeAt l (s.item e) start)

/-! ### The steps of a FLIP lane (R42 to R44) -/

/-- R43: the place step of a FLIP lane with no page: the first entry not skipped becomes the page,
whose cue-out action is the third answer (R44). -/
def State.placePage (s : State) : Nat → Lane → Lane × Bool × Option CueOut
  | 0, l => (l, false, none)
  | u + 1, l =>
    match l.ring[l.placedCount]? with
    | none => (l, false, none)
    | some e =>
      if s.skips (s.item e) then
        let r := l.skipEntry e (s.item e)
        let r' := State.placePage s u r.1
        (r'.1, r.2 || r'.2.1, r'.2.2)
      else ({ s.placeAt l (s.item e) 0 with dwellCount := 0 }, false, some (s.item e).cueOut)

/-! ### Cue-out actions (R136) -/

/-- R136: a cue-out action on the cue outputs, dropped while the kill latch is set. -/
def CueUnit.apply (u : CueUnit) (a : CueOut) : CueUnit :=
  if u.latch then u
  else match a with
    | .none => u
    | .set0 => { u with out0 := true }
    | .clear0 => { u with out0 := false }
    | .toggle0 => { u with out0 := !u.out0 }
    | .set1 => { u with out1 := true }
    | .clear1 => { u with out1 := false }
    | .toggle1 => { u with out1 := !u.out1 }

/-- R34, R44: cue-out actions handed over by a lane, one after another. -/
def State.handCueOuts (s : State) (as : List CueOut) : State :=
  { s with cue := as.foldl CueUnit.apply s.cue }

/-! ### A lane's field start work, step by step (R8, R28, R41) -/

/-- What a lane carries from one step of its field start work to the next: the number of the next
step, whether it entered RUNNING at this field start (R14), whether its dwell counter counted (R42),
and the pixel part noted at the advance (R29, R30). -/
structure LaneWork where
  step    : Nat
  begun   : Bool
  counted : Bool
  noted   : Int
  deriving DecidableEq, Repr

/-- Before the lane's field start work. -/
def LaneWork.initial : LaneWork := { step := 0, begun := false, counted := false, noted := 0 }

/-- The number of steps of a lane's field start work. -/
abbrev laneSteps : Nat := 11

/-- R29, R42: the advance of a CRAWL lane, the dwell count of a FLIP lane. -/
def Lane.advance (l : Lane) (w : LaneWork) : Lane × LaneWork :=
  if !l.state.works then (l, w)
  else match l.form.kind with
    | .crawl =>
      ({ l with offset := if l.moves && !w.begun then l.offset + l.motion.speed else l.offset },
       { w with noted := (l.offsetPx : Int) })
    | .flip =>
      if l.moves && !w.begun && !l.placed.isEmpty then
        ({ l with dwellCount := min 65535 (l.dwellCount + 1) }, { w with counted := true })
      else (l, w)

/-- R30: the rebase step of a CRAWL lane. -/
def Lane.rebaseStep (l : Lane) (w : LaneWork) : Lane × LaneWork :=
  if l.state.works && l.form.kind == .crawl && decide (Config.rebasePixels ≤ l.offsetPx) then
    (l.rebase, { w with noted := w.noted - (Config.rebasePixels : Int) })
  else (l, w)

/-- R31, R43: the retire step of a CRAWL lane, the page end step of a FLIP lane. -/
def Lane.retireStep (items : Store Item) (l : Lane) (w : LaneWork) : Lane × Bool :=
  if !l.state.works then (l, false)
  else match l.form.kind with
    | .crawl => l.retireLoop items l.placedCount
    | .flip =>
      if w.counted && decide (l.motion.dwell ≤ l.dwellCount) then
        let r := l.retireHead items
        ({ r.1 with dwellCount := 0 }, r.2)
      else (l, false)

/-- R34: the cue crossing step of a CRAWL lane. -/
def State.crossStep (s : State) (n : Fin 4) : State :=
  let l := s.lane n
  if l.state.works && l.form.kind == .crawl then
    (s.handCueOuts (l.crossings s.items)).setLane n l.noteEdges
  else s

/-- R35, R43: the place step, with LANE_EMPTY (R33) and a page's cue-out action (R44). -/
def State.placeStep (s : State) (n : Fin 4) (w : LaneWork) : State :=
  let l := s.lane n
  if !l.places then s
  else match l.form.kind with
    | .crawl =>
      let r := s.placeLoop (w.noted + (l.laneWidth : Int)) (l.ring.length - l.placedCount) l
      (s.setLane n r.1).raiseIf r.2 (.laneEmpty n)
    | .flip =>
      if l.placed.isEmpty then
        let r := s.placePage l.ring.length l
        ((s.handCueOuts r.2.2.toList).setLane n r.1).raiseIf r.2.1 (.laneEmpty n)
      else s

/-- R38: every placed envelope of a lane that takes strip work is stepped, head first. -/
def State.envelopeStep (s : State) (n : Fin 4) : State :=
  let l := s.lane n
  if l.state.works then
    s.setLane n { l with placed := l.placed.map fun p => { p with env := p.env.step (s.style p.style) } }
  else s

/-- R17: a lane whose fade-out has ended enters OFF, with LANE_OFF. -/
def State.offStep (s : State) (n : Fin 4) : State :=
  let l := s.lane n
  if l.fadeEnds then (s.setLane n l.enterOff).raise (.laneOff n) else s

/-- The next step of lane `n`'s field start work, in the order of R8 with the strip work of R28 and
R41 in its place. Past the last step there is nothing to do. -/
def State.laneStep (s : State) (n : Fin 4) (w : LaneWork) : State × LaneWork :=
  let l := s.lane n
  let w' := { w with step := w.step + 1 }
  match w.step with
  | 0 => (s.setLane n l.takeApply, w')
  | 1 => (s.setLane n l.begin, { w' with begun := l.state == .armed })
  | 2 => (s.setLane n (l.advance w').1, (l.advance w').2)
  | 3 => (s.setLane n (l.rebaseStep w').1, (l.rebaseStep w').2)
  | 4 =>
    let r := l.retireStep s.items w'
    ((s.setLane n r.1).raiseIf r.2 (.laneEmpty n), w')
  | 5 => (s.crossStep n, w')
  | 6 => (s.placeStep n w', w')
  | 7 => (s.envelopeStep n, w')
  | 8 => (s.setLane n l.drainCheck, w')
  | 9 => (s.setLane n l.fadeStep, w')
  | 10 => (s.offStep n, w')
  | _ => (s, w)

/-- The rest of lane `n`'s field start work; `fuel` bounds the steps. -/
def State.laneRest : Nat → State → Fin 4 → LaneWork → State × LaneWork
  | 0, s, _, w => (s, w)
  | fuel + 1, s, n, w => let r := s.laneStep n w; State.laneRest fuel r.1 n r.2

end Sys2Proof.Machine
end

