-- ==== Sys2Proof/Machine/Styles.lean ====
section
/-! DEFINITION. The style table's transfer at a field start (R122). -/

namespace Sys2Proof.Machine

/-- R122: the current copy of a style after the transfer: the pending appearance fields, and the
pending width fields unless the style is in use. -/
def Style.transferred (cur pend : Style) (inUse : Bool) : Style :=
  { pend with width := if inUse then cur.width else pend.width }

/-- R122: the transfer of one style. -/
def State.transferStyle (s : State) (k : Nat) : State :=
  { s with styles := { s.styles with
      cur := Store.put Style.builtIn s.styles.cur k
        ((s.style k).transferred (s.pendingStyle k) (s.styleInUse k)) } }

/-- R122: one transfer for all 32 styles. -/
def State.transferStyles (s : State) : State :=
  (List.range Config.styleCount).foldl State.transferStyle s

end Sys2Proof.Machine
end

