-- ==== Sys2Proof/Machine/Symbols.lean ====
section
/-! DEFINITION. Quote slots and the symbol table (spec/03_quote_slots_and_the_symbol_table.md): merge
and commit of a beat, and the transfer check of a slot at a field start. -/

namespace Sys2Proof.Machine

/-! ### Decoding at a commit (R49, R50, 12.3) -/

/-- R50: the trailing bytes of 0x20 of a symbol are removed. -/
def trimSpaces (cs : List Byte) : List Byte := (cs.reverse.dropWhile (· == 0x20)).reverse

/-- R50: the symbol of an assembly: its first 8 bytes up to the first 0x00, trailing spaces removed. -/
def decodeSymbol (asm : List Byte) : List Byte := trimSpaces ((asm.take 8).takeWhile (· != 0))

/-- R49: values 5, 6 and 7 of the decimals field are taken as 4. -/
def decodeDecimals (control : Word) : Nat := min 4 (bits control 24 3)

/-- R49: the status field, 3 taken as CLOSED. -/
def decodeStatus (control : Word) : QuoteStatus :=
  match bits control 27 2 with
  | 0 => .normal
  | 1 => .halted
  | _ => .closed

/-- R48, R49, R50: the quote value of a 16-byte assembly. -/
def decodeQuote (asm : List Byte) : QuoteValue :=
  let control := wordAt asm 3
  { symbol := decodeSymbol asm
    price := (wordAt asm 2).toInt
    change := (control.extractLsb' 0 24).toInt
    decimals := decodeDecimals control
    status := decodeStatus control
    percent := control.getLsbD 29 }

/-- R47, R48: a quote slot takes a beat: the enabled bytes are merged, and a beat that touches word 3
commits the whole assembly as the pending value. -/
def QuoteSlot.takeBeat (q : QuoteSlot) (b : Beat) : QuoteSlot :=
  let asm := mergeLanes q.asm b.lanes
  { q with asm := asm, pend := if b.touches 12 16 then some (decodeQuote asm) else q.pend }

/-! ### The transfer at a field start (R54 to R58) -/

/-- R55: whether a placed entry references a slot. -/
def State.references (s : State) (slot : Nat) (e : Nat × Placement) : Bool :=
  decide ((s.item e.1).source = .quote slot)

/-- R55: the check passes when every referencing entry of every lane has room for the value under
its entry style. -/
def State.fits (s : State) (slot : Nat) (v : QuoteValue) : Bool :=
  s.lanes.toList.all fun l => l.entries.all fun e =>
    !s.references slot e || decide (s.quoteWidth (s.style e.2.style) v ≤ e.2.width)

/-- R56: the tick direction; none is NONE. -/
def tickDirection (shown : Option QuoteValue) (v : QuoteValue) : Option Direction :=
  match shown with
  | none => none
  | some o => if o.price < v.price then some .up else if v.price < o.price then some .down else none

/-- R57: what a transfer does to the envelope of a referencing entry. -/
def Envelope.strike (e : Envelope) (k : Style) (status : QuoteStatus) (tick : Option Direction) :
    Envelope :=
  match status with
  | .normal =>
    match tick with
    | some d => e.trigger k d
    | none => e
  | .halted => e.letGo
  | .closed => e.letGo

/-- R57: the placed entries of a lane after a transfer of a slot; the entries of the ring go with
the placement records one by one. -/
def State.strikeRun (s : State) (slot : Nat) (status : QuoteStatus) (tick : Option Direction) :
    List Nat → List Placement → List Placement
  | e :: ring, p :: placed =>
    (if s.references slot (e, p) then
        { p with env := p.env.strike (s.style p.style) status tick }
      else p) :: State.strikeRun s slot status tick ring placed
  | _, placed => placed

/-- R57: one lane after a transfer of a slot. -/
def State.strikeLane (s : State) (slot : Nat) (status : QuoteStatus) (tick : Option Direction)
    (l : Lane) : Lane :=
  { l with placed := s.strikeRun slot status tick l.ring l.placed }

/-- R56, R57: the transfer is taken. -/
def State.transfer (s : State) (slot : Nat) (v : QuoteValue) : State :=
  let q := s.quote slot
  let tick := tickDirection q.shown v
  let strike := s.strikeLane slot v.status tick
  { s.setQuote slot { q with pend := none, shown := some v } with
    lanes := ⟨strike s.lanes.e0, strike s.lanes.e1, strike s.lanes.e2, strike s.lanes.e3⟩ }

/-- R54, R58: one transfer check of a slot; blocked, it changes nothing. -/
def State.checkSlot (s : State) (slot : Nat) : State :=
  match (s.quote slot).pend with
  | none => s
  | some v => if s.fits slot v then s.transfer slot v else s

/-- R54: the slots whose pending flag is set. -/
def State.pendingSlots (s : State) : List Nat :=
  (s.quotes.filter fun e => e.2.pend.isSome).map Prod.fst

/-- R63: the pending-slot count. -/
def State.pendingCount (s : State) : Nat := s.pendingSlots.length

end Sys2Proof.Machine
end

