-- ==== Sys2Proof/Machine/Field.lean ====
section
/-! DEFINITION. The field start (00_scope.md, the table of events): each block takes its own share,
in the order of arrival that the command carries (R59, R88, R90, R122, R130; notes/assumptions/3.md). -/

namespace Sys2Proof.Machine

/-- The shares of a field start not yet taken. -/
structure FieldWork where
  stylesDone : Bool
  slotsLeft  : List Nat
  lanes      : Four LaneWork
  clockDone  : Bool
  deriving DecidableEq, Repr

/-- R54: at a field start every slot whose pending flag is set has a check to take. -/
def FieldWork.initial (s : State) : FieldWork :=
  { stylesDone := false, slotsLeft := s.pendingSlots, lanes := Four.all LaneWork.initial,
    clockDone := false }

/-- The style table's share, once (R122). -/
def State.stylesShare (s : State) (w : FieldWork) : State × FieldWork :=
  if w.stylesDone then (s, w) else (s.transferStyles, { w with stylesDone := true })

/-- One slot's check, at most once (R54). -/
def State.slotShare (s : State) (w : FieldWork) (k : Nat) : State × FieldWork :=
  if w.slotsLeft.contains k then (s.checkSlot k, { w with slotsLeft := w.slotsLeft.erase k })
  else (s, w)

/-- The next step of one lane's work (R8). -/
def State.laneShare (s : State) (w : FieldWork) (n : Fin 4) : State × FieldWork :=
  let r := s.laneStep n (w.lanes.get n)
  (r.1, { w with lanes := w.lanes.set n r.2 })

/-- The rest of one lane's work. -/
def State.laneFinish (s : State) (w : FieldWork) (n : Fin 4) : State × FieldWork :=
  let r := State.laneRest laneSteps s n (w.lanes.get n)
  (r.1, { w with lanes := w.lanes.set n r.2 })

/-- R130: a tick reaches a lane before its field start work or after it, so the lanes whose work is
under way finish it first. -/
def State.finishStarted (s : State) (w : FieldWork) : State × FieldWork :=
  fours.foldl (fun r n => if (r.2.lanes.get n).step = 0 then r else r.1.laneFinish r.2 n) (s, w)

/-- The clock's share, once (R124). -/
def State.clockShare (s : State) (w : FieldWork) : State × FieldWork :=
  if w.clockDone then (s, w)
  else
    let r := s.finishStarted w
    (r.1.accumulate, { r.2 with clockDone := true })

/-- The next share to arrive. -/
def State.fieldTok (r : State × FieldWork) (t : FieldTok) : State × FieldWork :=
  match t with
  | .styles => r.1.stylesShare r.2
  | .slot k => r.1.slotShare r.2 k
  | .lane n => r.1.laneShare r.2 n
  | .clock => r.1.clockShare r.2

/-- The shares that the order does not name, in a fixed order: styles, slots, lanes, clock. -/
def State.fieldRest (r : State × FieldWork) : State × FieldWork :=
  let r1 := r.1.stylesShare r.2
  let r2 := r1.2.slotsLeft.foldl (fun q k => q.1.slotShare q.2 k) r1
  let r3 := fours.foldl (fun q n => q.1.laneFinish q.2 n) r2
  r3.1.clockShare r3.2

/-- R8 and the shares of the other blocks at a field start in ACTIVE. -/
def State.fieldShares (s : State) (order : List FieldTok) : State :=
  (State.fieldRest (order.foldl State.fieldTok (s, FieldWork.initial s))).1

/-- What every device state does at a field start: the field parity (R95), the field count (R163), the
taken flag (R161) and the frame line register (R131). -/
def State.fieldHead (s : State) (parity : Bool) : State :=
  { s with
    pins := { s.pins with parity := parity }
    parity := parity
    rep := { s.rep with count := s.rep.count + 1, taken := false }
    cue := { s.cue with lineReg := none } }

end Sys2Proof.Machine
end

