-- ==== Sys2Proof/Machine/FieldCommands.lean ====
section
/-! DEFINITION. FIELD_START, and the five events that a field start's work holds, each taken as a step
of its own where its cause stands (notes/assumptions/11.md). -/

namespace Sys2Proof.Machine

/-- FIELD_START (R8, R95, R163, R165): outside ACTIVE only what every device state does. -/
def execFieldStart (parity : Bool) (order : List FieldTok) (s : State) :
    Host.Outcome State Fault Refusal :=
  .next (
    if s.pins.resetN then
      let s1 := s.quiet.fieldHead parity
      if s1.device = .active then s1.fieldShares order else s1
    else s.quiet)

/-- R124: the cause of a second tick: acc plus D reaches N. -/
def State.tickDue (s : State) : Bool :=
  s.device == .active && s.conf.rate.any fun r => decide (r.n ≤ s.clock.acc + r.d)

/-- SECOND_TICK (R124): the clock's accumulation where it reaches N, with the schedule's share. -/
def execSecondTick (s : State) : Host.Outcome State Fault Refusal :=
  .next (if s.tickDue then s.quiet.accumulate else s.quiet)

/-- R42, R43: the cause of a page end: the dwell counter counts and reaches the dwell. -/
def State.pageDue (s : State) (n : Fin 4) : Bool :=
  let l := s.lane n
  s.device == .active && l.form.kind == .flip && l.moves && !l.placed.isEmpty &&
    decide (l.motion.dwell ≤ min 65535 (l.dwellCount + 1))

/-- R32: the cause of a pass limit: the head placed entry is a marker due to retire (R31), on a FLIP
lane by a page end (R42, R43), and its pass reaches the limit. -/
def State.passDue (s : State) (n : Fin 4) : Bool :=
  let l := s.lane n
  s.device == .active && l.state.works &&
    (match l.form.kind with
      | .crawl => l.headGone
      | .flip => s.pageDue n) &&
    (match l.ring with
      | [] => false
      | e :: _ => (s.item e).marker) &&
    l.motion.limitReached (min 255 (l.passCount + 1))

/-- PASS_LIMIT_REACHED (R31, R32): the marker retires; the counter is reset and the lane drained, or its
resume target set. A FLIP page's retirement sets the dwell counter to 0 (R43). -/
def execPassLimitReached (n : Fin 4) (s : State) : Host.Outcome State Fault Refusal :=
  .next (
    if s.passDue n then
      let r := (s.lane n).retireHead s.items
      let l := match r.1.form.kind with
        | .crawl => r.1
        | .flip => { r.1 with dwellCount := 0 }
      (s.quiet.setLane n l).raiseIf r.2 (.laneEmpty n)
    else s.quiet)

/-- PAGE_END (R42, R43): the page is counted and retires, and the next page is placed. These are steps
2, 4 and 6 of the lane's field start work. -/
def execPageEnd (n : Fin 4) (s : State) : Host.Outcome State Fault Refusal :=
  .next (
    if s.pageDue n then
      let r2 := s.quiet.laneStep n { LaneWork.initial with step := 2 }
      let r4 := r2.1.laneStep n { r2.2 with step := 4 }
      (r4.1.laneStep n { r4.2 with step := 6 }).1
    else s.quiet)

/-- R87: the cause of a hold's expiry: a gated envelope whose countdown reaches 0. -/
def Envelope.holdDue (e : Envelope) : Bool := e.phase.gated && decide (e.hold ≤ 1)

/-- HOLD_EXPIRY (R87): the envelope of an entry moves to RELEASE at its standing level. -/
def execHoldExpiry (n : Fin 4) (entry : Nat) (s : State) : Host.Outcome State Fault Refusal :=
  .next (
    let l := s.lane n
    if s.device = .active ∧ l.state.works = true then
      s.quiet.setLane n { l with placed := l.placed.modify entry fun p =>
        if p.env.holdDue then { p with env := p.env.holdStep } else p }
    else s.quiet)

/-- R16, R17: the cause of a fade-out's end: the step down reaches 0. -/
def State.fadeDue (s : State) (n : Fin 4) : Bool :=
  s.device == .active && (s.lane n).fadeStep.fadeEnds

/-- FADE_OUT_END (R16, R17): the lane enters OFF, with LANE_OFF. -/
def execFadeOutEnd (n : Fin 4) (s : State) : Host.Outcome State Fault Refusal :=
  .next (
    if s.fadeDue n then (s.quiet.setLane n (s.lane n).enterOff).raise (.laneOff n) else s.quiet)

end Sys2Proof.Machine
end

