-- ==== Sys2Proof/Machine/Compositor.lean ====
section
/-! DEFINITION. Composition on the scan path (spec/06_composition_on_the_scan_path.md). -/

namespace Sys2Proof.Machine

/-! ### Frame buffer windows (R92, R94, R95) -/

/-- R92: the bytes a window covers. -/
def DecodeConfig.size (d : DecodeConfig) : Nat := d.lines * d.pitch

/-- R94: the offset of an address in the window that decodes it, window 0 deciding. -/
def DecodeConfig.offset? (d : DecodeConfig) (addr : Nat) : Option Nat :=
  if d.base0.toNat ≤ addr ∧ addr < d.base0.toNat + d.size then some (addr - d.base0.toNat)
  else if d.base1.toNat ≤ addr ∧ addr < d.base1.toNat + d.size then some (addr - d.base1.toNat)
  else none

/-- R94: the frame line of an address within a window. -/
def State.frameLine (s : State) (addr : Nat) : Option Nat :=
  s.conf.decode.bind fun d => (d.offset? addr).map fun o => o / d.pitch

/-- R94: the frame line and column of a word in the active area. -/
def DecodeConfig.pixel? (d : DecodeConfig) (addr : Nat) : Option (Nat × Nat) :=
  match d.offset? addr with
  | some o => if o % d.pitch < 4 * d.width then some (o / d.pitch, o % d.pitch / 4) else none
  | none => none

/-- R95: whether a frame line belongs to the current field. -/
def DecodeConfig.inField (d : DecodeConfig) (parity : Bool) (line : Nat) : Bool :=
  !d.interlaced || line % 2 == (if parity then 1 else 0)

/-! ### Which words are composited (R97) -/

/-- R97: the lane states in which a lane is composited. -/
def LaneState.composited : LaneState → Bool
  | .armed => true
  | .running => true
  | .held => true
  | .draining => true
  | .fadingOut => true
  | .off => false
  | .killed => false

/-- R97, conditions 5 to 7: a frame line and column lie in a composited lane's rectangle. -/
def Lane.covers (l : Lane) (line col : Nat) : Bool :=
  l.state.composited && l.form.hasLine line && decide (l.form.left ≤ col) && decide (col ≤ l.form.right)

/-- R97: the lane a word lies under, with its frame line and column. At most one lane does (R6). -/
def State.underLane (s : State) (addr : Nat) : Option (Fin 4 × Nat × Nat) :=
  match s.conf.decode with
  | none => none
  | some d =>
    match d.pixel? addr with
    | none => none
    | some (line, col) =>
      if s.device = .active ∧ s.cue.latch = false ∧ d.inField s.parity line = true then
        (fours.find? fun n => (s.lane n).covers line col).map fun n => (n, line, col)
      else none

/-! ### The strip behind a column (R98 to R101) -/

/-- R98: the placed entry that covers a strip position, item and record. -/
def Lane.covering (l : Lane) (t : Int) : Option (Nat × Placement) :=
  l.entries.find? fun e => decide (e.2.start ≤ t) && decide (t < e.2.start + e.2.width)

/-- R99: the text top of a font of height `fh` on a form. -/
def Form.textTop (f : Form) (fh : Nat) : Nat :=
  if fh ≤ f.height then f.top + (f.height - fh) / 2 else f.top

/-- R100: the coverage nibble of a glyph at a column and a row of its bitmap. -/
def Glyph.nibble (g : Glyph) (col row : Nat) : Nat := (g.nibbles.getD (row * g.width + col) 0).toNat

/-- R99, R100: the coverage of position `r` of an entry of this source and style on a frame line. -/
def State.entryCoverage (s : State) (f : Form) (line : Nat) (k : Style) (src : ItemSource) (r : Nat) :
    Nat :=
  let font := s.fontOf k
  let top := f.textTop font.height
  if top ≤ line ∧ line < top + font.height then
    match (s.sourceRun k src).find? fun p =>
        decide (p.pos ≤ r) && decide (r < p.pos + (font.glyph p.code).width) with
    | some p => (font.glyph p.code).nibble (r - p.pos) (line - top) * 17
    | none => 0
  else 0

/-- R100: the coverage c8 of a strip position on a frame line. -/
def State.coverage (s : State) (l : Lane) (line : Nat) (t : Int) : Nat :=
  match l.covering t with
  | none => 0
  | some (e, p) => s.entryCoverage l.form line (s.style p.style) (s.item e).source (t - p.start).toNat

/-- R101: the coverage weight of the two samples. -/
def coverageWeight (f c0 c1 : Nat) : Nat :=
  let c := ((256 - f) * c0 + f * c1 + 128) / 256
  c + c / 128

/-! ### Colors (R102 to R104) -/

/-- A mix of two components with weights `256 - w` and `w`, rounded half up (R104, R105). -/
def mix (a b w : Nat) : Nat := (a * (256 - w) + b * w + 128) / 256

/-- The mix of two colors, component by component. -/
def Color.mix (a b : Color) (w : Nat) : Color :=
  { y := Machine.mix a.y b.y w, cb := Machine.mix a.cb b.cb w, cr := Machine.mix a.cr b.cr w }

/-- R103: the text color of a covering item under its style. -/
def State.textColor (s : State) (k : Style) (src : ItemSource) : Color :=
  match src with
  | .quote n =>
    match (s.quote n).shown with
    | some v =>
      match v.status with
      | .halted => k.colors.halt
      | _ => if 0 < v.change then k.colors.up else if v.change < 0 then k.colors.down
             else k.colors.flat
    | none => k.colors.text
  | .text _ => k.colors.text
  | .clock => k.colors.text

/-- R104: the flash weight of a level, widened to 0..256. -/
def flashWeight (level : Nat) : Nat := level / 256 + level / 256 / 128

/-- R104: the flashed fill. -/
def Style.flashedFill (k : Style) (e : Envelope) : Color :=
  k.colors.fill.mix
    (match e.direction with
      | .up => k.flash.flashUp
      | .down => k.flash.flashDown) (flashWeight e.level)

/-! ### The blend (R105, R106) -/

/-- 12.4: the color of a pixel word. -/
def colorOfWord (w : Word) : Color := { y := bits w 20 10, cb := bits w 10 10, cr := bits w 0 10 }

/-- 12.4: a pixel word carrying a color, with bits 31..30 of another word. -/
def Color.inWord (c : Color) (w : Word) : Word :=
  w.extractLsb' 30 2 ++ BitVec.ofNat 10 c.y ++ BitVec.ofNat 10 c.cb ++ BitVec.ofNat 10 c.cr

/-- R106: the legal range of a component. -/
def legal (hi v : Nat) : Nat := max 64 (min hi v)

/-- R106: the clamp of an output color. -/
def Color.legalize (c : Color) : Color :=
  { y := legal 940 c.y, cb := legal 960 c.cb, cr := legal 960 c.cr }

/-- R105, R106: the word returned for a flashed fill, text color, fill alpha, coverage weight, fade
level and legalize flag. -/
def blendWord (w : Word) (fill text : Color) (alpha k g : Nat) (legalize : Bool) : Word :=
  let band := fill.mix text k
  let a := mix alpha 256 k
  let a' := (a * g + 128) / 256
  if a' = 0 then w
  else
    let o := (colorOfWord w).mix band a'
    (if legalize then o.legalize else o).inWord w

/-- R98 to R106: the word returned for a word under a lane. -/
def State.composeUnder (s : State) (l : Lane) (line col : Nat) (w : Word) : Word :=
  let sp : Int := (l.offsetPx : Int) + ((col - l.form.left : Nat) : Int)
  let k := coverageWeight l.fraction (s.coverage l line sp) (s.coverage l line (sp + 1))
  let laneStyle := s.style l.form.style
  match l.covering sp with
  | some (e, p) =>
    let src := s.style p.style
    blendWord w (src.flashedFill p.env) (s.textColor src (s.item e).source) src.flash.alpha k l.fade
      laneStyle.flash.legalize
  | none =>
    blendWord w laneStyle.colors.fill laneStyle.colors.text laneStyle.flash.alpha k l.fade
      laneStyle.flash.legalize

/-- R97: the word returned for a word read at an address. -/
def State.composeWord (s : State) (addr : Nat) (w : Word) : Word :=
  match s.underLane addr with
  | some (n, line, col) => s.composeUnder (s.lane n) line col w
  | none => w

/-- R96: the four words of a beat, all from the same state. -/
def State.composeBeat (s : State) (addr : Nat) (ws : Four Word) : Four Word :=
  ⟨s.composeWord addr ws.e0, s.composeWord (addr + 4) ws.e1, s.composeWord (addr + 8) ws.e2,
   s.composeWord (addr + 12) ws.e3⟩

end Sys2Proof.Machine
end

