-- ==== Sys2Proof/Machine/Operands.lean ====
section
/-! DEFINITION. The operands of the 25 commands, read at execution from the fields that 12.2 gives each
(R172), with the argument checks and clamps of the owning rules. A reading of `none` is BAD_ARG. Every
bit outside a command's fields is ignored. -/

namespace Sys2Proof.Machine

/-- A number below a bound. -/
def below (n bound : Nat) : Option Nat := if n < bound then some n else none

/-- R2: the lanes named by the short argument; bits 4 to 7 are ignored. -/
def Command.laneMask (c : Command) : BitVec 4 := c.close.extractLsb' 8 4

/-- The lane number of the short argument. -/
def Command.lane (c : Command) : Option (Fin 4) := four? c.short

/-! ### Lane commands -/

/-- 12.2: the kind of a lane. -/
def laneKind? (n : Nat) : Option LaneKind :=
  match n with
  | 0 => some .crawl
  | 1 => some .flip
  | _ => none

/-- R3: the right column clamped between the left column plus 63 and the active width minus 1. -/
def clampRight (left right width : Nat) : Nat := max (left + 63) (min right (width - 1))

/-- R3: the form a LANE_FORM carries, checked against the active area. -/
def Command.formFor (c : Command) (width lines : Nat) : Option Form :=
  (laneKind? (bits c.w0 0 8)).bind fun kind =>
    let style := bits c.w0 8 8
    let top := bits c.w1 0 16
    let height := bits c.w1 16 16
    let left := bits c.w2 0 16
    let right := bits c.w2 16 16
    if top < lines ∧ 8 ≤ height ∧ height ≤ 96 ∧ left + 64 ≤ width ∧ style < 32 then
      some { kind := kind, top := top, height := height, left := left,
             right := clampRight left right width, style := style }
    else none

/-- R4: the motion a LANE_MOTION carries, clamped but for its cue column. -/
def Command.motion (c : Command) : Motion :=
  { speed := min 8191 (bits c.w0 0 16)
    gap := min 1023 (bits c.w0 16 16)
    dwell := max 1 (bits c.w1 0 16)
    fade := min 255 (bits c.w1 16 8)
    passLimit := min 255 (bits c.w1 24 8)
    cueColumn := bits c.w2 0 16 }

/-- R11: the mode of STOP as a lane action. -/
def Command.stopMode (c : Command) : Option LaneAction :=
  match bits c.w0 0 8 with
  | 0 => some .stopDrain
  | 1 => some .stopFade
  | _ => none

/-- R139: the target of RESTORE; true is RUNNING. -/
def Command.restoreTarget (c : Command) : Option Bool :=
  match bits c.w0 0 8 with
  | 0 => some false
  | 1 => some true
  | _ => none

/-! ### Ring commands -/

/-- R23: the item of a ring or item command. -/
def Command.itemIndex (c : Command) : Option Nat := below (bits c.w0 0 16) Config.itemCount

/-- R23: the position of ENQUEUE; true is NEXT. -/
def Command.position (c : Command) : Option Bool :=
  match bits c.w0 16 8 with
  | 0 => some false
  | 1 => some true
  | _ => none

/-! ### Item, text and style commands -/

/-- 12.2: the cue-out actions. -/
def cueOut? (n : Nat) : Option CueOut :=
  match n with
  | 0 => some .none
  | 1 => some .set0
  | 2 => some .clear0
  | 3 => some .toggle0
  | 4 => some .set1
  | 5 => some .clear1
  | 6 => some .toggle1
  | _ => none

/-- R110: the kind and source of ITEM_DEFINE; the source of a CLOCK is neither checked nor kept. -/
def itemSource? (kind source : Nat) : Option ItemSource :=
  match kind with
  | 0 => (below source Config.segmentCount).map ItemSource.text
  | 1 => (below source Config.quoteCount).map ItemSource.quote
  | 2 => some .clock
  | _ => none

/-- R110, R172: the style override of ITEM_DEFINE, 0xFF giving none. -/
def override? (n : Nat) : Option (Option Nat) :=
  if n = 0xFF then some none else (below n Config.styleCount).map some

/-- R110: the record an ITEM_DEFINE carries. -/
def Command.itemRecord (c : Command) : Option Item :=
  (itemSource? (bits c.w0 16 8) (bits c.w1 0 16)).bind fun src =>
  (override? (bits c.w1 16 8)).bind fun ov =>
  (cueOut? (bits c.w0 24 8)).map fun cue =>
    { defined := true, source := src, override := ov, repeats := c.w1.getLsbD 24,
      marker := c.w1.getLsbD 25, cueOut := cue, tag := c.w2.extractLsb' 0 16 }

/-- R115, R172: the next link of TEXT_SEGMENT, 0xFFFF giving none. -/
def nextLink? (n : Nat) : Option (Option Nat) :=
  if n = 0xFFFF then some none else (below n Config.segmentCount).map some

/-- R115: what a TEXT_SEGMENT carries: index, half (true is 1), count, next link and twelve codes. -/
structure SegmentArgs where
  index : Nat
  upper : Bool
  count : Nat
  next  : Option Nat
  codes : List Byte

/-- R115: the arguments of TEXT_SEGMENT; a count above 24 is taken as 24. -/
def Command.segmentArgs (c : Command) : Option SegmentArgs :=
  (below (bits c.w0 0 16) Config.segmentCount).bind fun i =>
  (below (bits c.w0 16 8) 2).bind fun half =>
  (nextLink? (bits c.w1 0 16)).map fun nx =>
    { index := i, upper := half == 1, count := min 24 (bits c.w0 24 8), next := nx,
      codes := wordBytes c.w2 ++ wordBytes c.w3 ++ wordBytes c.w4 }

/-- R120, R121: the style of a style command. -/
def Command.styleIndex (c : Command) : Option Nat := below c.short Config.styleCount

/-- R120: the six colors of STYLE_COLORS. -/
def Command.sixColors (c : Command) : SixColors :=
  { fill := colorOfWord c.w0, text := colorOfWord c.w1, up := colorOfWord c.w2,
    down := colorOfWord c.w3, flat := colorOfWord c.w4, halt := colorOfWord c.w5 }

/-- R121: the appearance fields of STYLE_FORM; a hold of 0 is taken as 1. -/
def Command.flashFields (c : Command) : Option FlashFields :=
  let alpha := bits c.w2 0 16
  let attack := bits c.w4 0 8
  let decay := bits c.w4 8 8
  let release := bits c.w4 16 8
  let sustain := bits c.w4 24 8
  if alpha ≤ 256 ∧ attack ≤ 15 ∧ decay ≤ 15 ∧ release ≤ 15 ∧ sustain ≤ 15 then
    some { flashUp := colorOfWord c.w0, flashDown := colorOfWord c.w1, alpha := alpha,
           legalize := c.w3.getLsbD 19, attack := attack, decay := decay, release := release,
           sustain := sustain, hold := max 1 (bits c.w5 0 8) }
  else none

/-- R121: the width fields of STYLE_FORM. -/
def Command.widthFields (c : Command) : Option WidthFields :=
  let font := bits c.w2 16 8
  let pad := bits c.w2 24 8
  let minWidth := bits c.w3 0 16
  if font ≤ 3 ∧ pad ≤ 63 ∧ minWidth ≤ 1023 then
    some { font := font, pad := pad, minWidth := minWidth, separators := c.w3.getLsbD 16,
           percent := c.w3.getLsbD 17, seconds := c.w3.getLsbD 18 }
  else none

/-! ### Clock, schedule and cue commands -/

/-- R125: a BCD time, none where it breaks the ranges. -/
def timeArg (w : Word) : Option TimeOfDay :=
  if (timeOfWord w).valid then some (timeOfWord w) else none

/-- 12.2: the actions of the schedule. -/
def schedAction? (n : Nat) : Option SchedAction :=
  match n with
  | 0 => some (.lane .start)
  | 1 => some (.lane .stopDrain)
  | 2 => some (.lane .stopFade)
  | 3 => some (.lane .hold)
  | 4 => some (.lane .resume)
  | 5 => some (.lane .take)
  | 6 => some .setStyle
  | _ => none

/-- 12.2: the modes of a schedule entry; true is DAILY. -/
def daily? (n : Nat) : Option Bool :=
  match n with
  | 0 => some false
  | 1 => some true
  | _ => none

/-- R127: the entry number and the entry a SCHEDULE_SET carries. -/
def Command.scheduleArgs (c : Command) : Option (Nat × SchedEntry) :=
  (below c.short Config.scheduleCount).bind fun i =>
  (timeArg c.w0).bind fun t =>
  (daily? (bits c.w1 0 8)).bind fun daily =>
  (schedAction? (bits c.w1 8 8)).bind fun action =>
    let mask : BitVec 4 := c.w1.extractLsb' 16 4
    let arg := bits c.w1 24 8
    if mask = 0 ∨ (action = .setStyle ∧ 31 < arg) then none
    else some (i, { armed := true, time := t, daily := daily, action := action, mask := mask,
                    arg := arg })

/-- R127: the selector of SCHEDULE_CLEAR. -/
def Command.entrySelector (c : Command) : BitVec 16 := c.w0.extractLsb' 0 16

/-- 12.2: the edges of a cue input. -/
def edge? (n : Nat) : Option Edge :=
  match n with
  | 0 => some .rise
  | 1 => some .fall
  | 2 => some .both
  | _ => none

/-- 12.2: the actions of a cue input. -/
def cueAction? (n : Nat) : Option CueAction :=
  match n with
  | 0 => some .none
  | 1 => some .capture
  | 2 => some (.lane .start)
  | 3 => some (.lane .stopDrain)
  | 4 => some (.lane .stopFade)
  | 5 => some (.lane .hold)
  | 6 => some (.lane .resume)
  | 7 => some (.lane .take)
  | _ => none

/-- R135: what a CUE_SET carries. -/
structure CueArgs where
  input  : Fin 4
  filter : Bool
  edge   : Edge
  action : CueAction
  mask   : BitVec 4

/-- R135: the arguments of CUE_SET. -/
def Command.cueArgs (c : Command) : Option CueArgs :=
  (four? c.short).bind fun n =>
  (below (bits c.w0 0 8) 2).bind fun filter =>
  (edge? (bits c.w0 8 8)).bind fun edge =>
  (cueAction? (bits c.w0 16 8)).bind fun action =>
    let mask : BitVec 4 := c.w0.extractLsb' 24 4
    if mask = 0 ∧ action ≠ .none then none
    else some { input := n, filter := filter == 1, edge := edge, action := action, mask := mask }

/-- R136: the operations of CUEOUT_LEVEL. -/
inductive LevelOp where
  | keep
  | low
  | high
  | toggle
  deriving DecidableEq, Repr

/-- 12.2: the codes of the operations. -/
def levelOp? (n : Nat) : Option LevelOp :=
  match n with
  | 0 => some .keep
  | 1 => some .low
  | 2 => some .high
  | 3 => some .toggle
  | _ => none

/-- R136: an output takes its operation. -/
def LevelOp.apply (o : LevelOp) (level : Bool) : Bool :=
  match o with
  | .keep => level
  | .low => false
  | .high => true
  | .toggle => !level

/-- R136: the operations of CUEOUT_LEVEL, for CUEOUT0 and CUEOUT1. -/
def Command.levelOps (c : Command) : Option (LevelOp × LevelOp) :=
  (levelOp? (bits c.w0 0 8)).bind fun a => (levelOp? (bits c.w0 8 8)).map fun b => (a, b)

/-! ### Event commands -/

/-- R159, R160: the selector of 19 bits. -/
def Command.eventSelector (c : Command) : BitVec 19 := c.w0.extractLsb' 0 19

/-- R159, R172: the fill of EVENT_MASK is the whole of w1. -/
def Command.fill (c : Command) : Option Bool :=
  if c.w1 = 0 then some false else if c.w1 = 1 then some true else none

end Sys2Proof.Machine
end

