-- ==== Sys2Proof/Machine/Window.lean ====
section
/-! DEFINITION. The aperture monitor and the command window (spec/09, 9.1 to 9.4; R46, R51, R153,
R154): what the part does with each beat of a system-port write, the closing write and its flow
control, the held write, and the transactions that wait behind it. -/

namespace Sys2Proof.Machine

/-! ### Decoding a beat against the aperture (R154) -/

/-- R154: the range a beat falls in. -/
inductive BeatRange where
  /-- The command window: slot and half, the upper half holding words 4 to 7 (R141). -/
  | command (slot : Nat) (upper : Bool)
  /-- A quote slot (R45). -/
  | quote (slot : Nat)
  /-- The report block, the unwatched range, and all memory outside the aperture. -/
  | unwatched
  deriving DecidableEq, Repr

/-- R154: the decoding of an address against the anchor in force. -/
def beatRange (anchor : Word) (addr : Nat) : BeatRange :=
  if addr < anchor.toNat then .unwatched
  else
    let o := addr - anchor.toNat
    if o < 0x800 then .command (o / 32) (o / 16 % 2 == 1)
    else if 0x8000 ≤ o ∧ o < 0x10000 then .quote ((o - 0x8000) / 16)
    else .unwatched

/-- R141: lanes 8 to 11 of the upper half, word 6, are not merged. -/
def dropWord6 (lanes : List (Option Byte)) : List (Option Byte) :=
  lanes.take 8 ++ [none, none, none, none] ++ lanes.drop 12

/-- R141: a command slot's assembly after a beat. -/
def CommandSlot.merge (c : CommandSlot) (upper : Bool) (b : Beat) : CommandSlot :=
  if upper then { c with hi := mergeLanes c.hi (dropWord6 b.lanes) }
  else { c with lo := mergeLanes c.lo b.lanes }

/-- R142: the command an assembly forms. -/
def CommandSlot.command (c : CommandSlot) : Command :=
  { w0 := wordAt c.lo 0, w1 := wordAt c.lo 1, w2 := wordAt c.lo 2, w3 := wordAt c.lo 3,
    w4 := wordAt c.hi 0, w5 := wordAt c.hi 1, close := wordAt c.hi 3 }

/-- R46, R141, R165: the monitor's merge of a beat, and the commit of a quote slot (R48), by the
device state. -/
def State.monitor (s : State) (b : Beat) : State :=
  match beatRange s.conf.anchor b.addr with
  | .command n upper => if s.device = .loading then s else s.setSlot n ((s.slot n).merge upper b)
  | .quote n => if s.device = .active then s.setQuote n ((s.quote n).takeBeat b) else s
  | .unwatched => s

/-- R141: the slot that a beat closes: it touches word 7, and closes are taken. -/
def State.closes (s : State) (b : Beat) : Option Nat :=
  match beatRange s.conf.anchor b.addr with
  | .command n upper => if upper && b.touches 12 16 && s.device != .loading then some n else none
  | .quote _ => none
  | .unwatched => none

/-! ### Deciding a closing write (R142, R144 to R147) -/

/-- How a closing write is decided. -/
inductive Decision where
  | append
  | answer (r : ResultCode)
  | hold (need : HoldNeed)
  | discard
  deriving DecidableEq, Repr

/-- R144, R145: a full queue is met: held in HOLD mode, discarded in PASS mode. -/
def State.flowDecision (s : State) (need : HoldNeed) : Decision :=
  match s.conf.flow with
  | .hold => .hold need
  | .pass => .discard

/-- R147: an answer needs an entry of the write-back queue. -/
def State.answerDecision (s : State) (r : ResultCode) : Decision :=
  if s.resultRoom then .answer r else s.flowDecision .resultRoom

/-- 12.2: the command code of RELOAD. -/
def reloadCode : Nat := 0x71

/-- R142, the third and fourth rows. -/
def State.decideSlot (s : State) (slot : Nat) : Decision :=
  if (s.slot slot).inFlight then s.answerDecision .slotBusy else .append

/-- R142: the first condition that holds decides a closing write. -/
def State.decideClosing (s : State) (slot : Nat) (c : Command) : Decision :=
  if s.device = .unconfigured ∧ c.code ≠ reloadCode then s.answerDecision .notReady
  else if Config.intakeDepth ≤ s.intake.queue.length then s.flowDecision .intakeRoom
  else s.decideSlot slot

/-- R145: a discarded command. -/
def State.discard (s : State) (tag : BitVec 16) : State :=
  State.raise
    { s with intake := { s.intake with overrun := min 65535 (s.intake.overrun + 1), lastTag := tag } }
    .overrun

/-- R143: a closing write is appended and its slot becomes IN_FLIGHT. -/
def State.append (s : State) (slot : Nat) (c : Command) : State :=
  let s1 := s.setSlot slot { s.slot slot with inFlight := true }
  { s1 with intake := { s1.intake with
      queue := s1.intake.queue ++ [{ slot := slot, command := c }] } }

/-- R142: the outcome of a closing write that is not held, after its merge. -/
def State.settle (s : State) (slot : Nat) (c : Command) (d : Decision) : State :=
  match d with
  | .append => s.append slot c
  | .answer r => s.handOver (c.answer slot r)
  | .discard => s.discard c.tag
  | .hold _ => s

/-- R142: the command a closing beat forms, after its merge. -/
def State.closingCommand (s : State) (slot : Nat) (b : Beat) : Command :=
  ((s.slot slot).merge true b).command

/-! ### Taking beats in order (R51, R141, R144) -/

/-- What came of a transaction's beats: the state, the beats to be passed to memory, and the beats
that are held with what they wait for. -/
structure Taken where
  state  : State
  passed : List Beat
  rest   : Option (List Beat × HoldNeed)

/-- R51, R141: the beats are taken in order, until a closing write is held. -/
def State.takeBeats (s : State) : List Beat → Taken
  | [] => { state := s, passed := [], rest := none }
  | b :: bs =>
    match s.closes b with
    | none =>
      let t := State.takeBeats (s.monitor b) bs
      { t with passed := b :: t.passed }
    | some n =>
      let c := s.closingCommand n b
      match s.decideClosing n c with
      | .hold need => { state := s, passed := [], rest := some (b :: bs, need) }
      | d =>
        let t := State.takeBeats ((s.monitor b).settle n c d) bs
        { t with passed := b :: t.passed }

/-- R155: memory's response to the next part of a transaction, and those left. -/
def nextReply (replies : List MemResp) : MemResp × List MemResp :=
  match replies with
  | [] => (.okay, [])
  | r :: t => (r, t)

/-- R155: the response of a transaction: an error where memory answered a part with one. -/
def joinReply (priorErr : Bool) (r : MemResp) : MemResp := if priorErr then .error else r

/-- R153, R155: the beats taken are carried to memory as one transaction; what is left is held, or
the write's response is returned. `priorErr` tells of an error in an earlier part. -/
def Taken.pass (t : Taken) (size : BeatSize) (priorErr : Bool) (replies : List MemResp) : State :=
  let s := t.state.emitWrite .system size t.passed
  let part := if t.passed.isEmpty then (.okay, replies) else nextReply replies
  match t.rest with
  | none => s.emit (.sysWriteResp (joinReply priorErr part.1))
  | some (beats, need) =>
    { s with port := { s.port with
        held := some { size := size, beats := beats, need := need,
                       priorErr := priorErr || part.1 == .error, replies := part.2 } } }

/-- R153: a transaction that the port takes. -/
def State.takeTxn (s : State) (t : SysTxn) : State :=
  match t with
  | .write w => (s.takeBeats w.beats).pass w.size false w.replies
  | .read r => (s.emit (.memRead .system r.addr r.len r.size)).emit (.sysReadResp r.data r.reply)

/-- R144, R153: the port takes the transactions presented to it, until a write is held; the others go
on waiting. -/
def State.takeWaiting (s : State) : List SysTxn → State
  | [] => { s with port := { s.port with waiting := [] } }
  | t :: ts =>
    if s.port.held.isSome then { s with port := { s.port with waiting := t :: ts } }
    else State.takeWaiting (s.takeTxn t) ts

/-- R144, R153: a transaction is presented at the port. -/
def State.present (s : State) (t : SysTxn) : State := s.takeWaiting (s.port.waiting ++ [t])

/-! ### The held write (R144, R147, R150) -/

/-- R144, R147: whether what a held write waits for has come. -/
def State.heldDue (s : State) : Bool :=
  match s.port.held with
  | none => false
  | some h =>
    match h.need with
    | .intakeRoom => decide (s.intake.queue.length < Config.intakeDepth)
    | .resultRoom => s.resultRoom

/-- R149: whether a held write is to be decided before the intake executes its next command: it waits for
the intake queue, and an entry has left. Of a held write and an execution that both wait for the
write-back queue, whichever event comes first takes the freed entry (notes/assumptions/12.md). -/
def State.heldFirst (s : State) : Bool :=
  match s.port.held with
  | none => false
  | some h => h.need == .intakeRoom && s.heldDue

/-- R147: the answer that a closing write which waits for the write-back queue is owed. -/
def State.owedAnswer (s : State) (c : Command) : ResultCode :=
  if s.device = .unconfigured ∧ c.code ≠ reloadCode then .notReady else .slotBusy

/-- R144, R147: how a held write is decided again: from the third row where it waited for the intake
queue; its answer is given where it waited for the write-back queue. -/
def State.decideAgain (s : State) (need : HoldNeed) (slot : Nat) (c : Command) : Decision :=
  match need with
  | .intakeRoom => s.decideSlot slot
  | .resultRoom => s.answerDecision (s.owedAnswer c)

/-- R144: the held beat is merged and decided, the beats behind it are taken in order. A beat that
goes on waiting for a write-back entry stays held (R147). -/
def State.releaseBeats (s : State) (need : HoldNeed) : List Beat → Taken
  | [] => { state := s, passed := [], rest := none }
  | b :: bs =>
    match s.closes b with
    | none =>
      let t := (s.monitor b).takeBeats bs
      { t with passed := b :: t.passed }
    | some n =>
      let c := s.closingCommand n b
      match s.decideAgain need n c with
      | .hold need' => { state := s, passed := [], rest := some (b :: bs, need') }
      | d =>
        let t := ((s.monitor b).settle n c d).takeBeats bs
        { t with passed := b :: t.passed }

/-- R144: the limit expires: the held beat is merged and its command discarded, the beats behind it are
taken in order. -/
def State.expireBeats (s : State) : List Beat → Taken
  | [] => { state := s, passed := [], rest := none }
  | b :: bs =>
    let s1 := match s.closes b with
      | none => s.monitor b
      | some n => (s.monitor b).discard (s.closingCommand n b).tag
    let t := s1.takeBeats bs
    { t with passed := b :: t.passed }

/-- The port with nothing held. -/
def State.dropHeld (s : State) : State := { s with port := { s.port with held := none } }

/-- R144, R153: a hold has been dealt with; the transactions that waited are taken. -/
def State.resumePort (s : State) : State := s.takeWaiting s.port.waiting

/-- R144, R147: the release of a held write that is due. -/
def State.releaseHeld (s : State) : State :=
  match s.port.held with
  | none => s
  | some h =>
    (((s.dropHeld).releaseBeats h.need h.beats).pass h.size h.priorErr h.replies).resumePort

/-- R144, R145: the stall limit of a held write expires. -/
def State.expireHeld (s : State) : State :=
  match s.port.held with
  | none => s
  | some h => (((s.dropHeld).expireBeats h.beats).pass h.size h.priorErr h.replies).resumePort

/-- R150: at the entry to LOADING a held write's beats are passed to memory without merging. In
LOADING the monitor takes nothing, so `takeBeats` passes every beat. -/
def State.releaseUnmerged (s : State) : State :=
  match s.port.held with
  | none => s
  | some h => (((s.dropHeld).takeBeats h.beats).pass h.size h.priorErr h.replies).resumePort

end Sys2Proof.Machine
end

