-- ==== Sys2Proof/Machine/Intake.lean ====
section
/-! DEFINITION. Execution and completion of the commands of the intake queue (R148, R149). -/

namespace Sys2Proof.Machine

/-- 12.2: the 25 command codes. -/
def commandCodes : List Nat :=
  [0x10, 0x11, 0x12, 0x13, 0x14, 0x15, 0x16, 0x17, 0x20, 0x21, 0x22, 0x30, 0x31, 0x32, 0x40, 0x41,
   0x50, 0x51, 0x52, 0x53, 0x54, 0x60, 0x61, 0x70, 0x71]

/-- R148: whether the intake may begin an execution: not in LOADING nor while RESET_N is low, not while
an accepted RELOAD stands at the head, not while the write-back queue is full, and, of R149, not before
a held write that waits for the intake queue and finds room there has been decided. -/
def State.mayExecute (s : State) : Bool :=
  s.pins.resetN && s.device != .loading && s.intake.reload.isNone &&
    decide (s.own.writeBack.length < Config.writeBackDepth) && !s.heldFirst

/-- R148: the command the intake executes next. In UNCONFIGURED the only one is RELOAD. -/
def State.nextCommand (s : State) : Option IntakeEntry :=
  if s.mayExecute then
    match s.intake.queue with
    | [] => none
    | e :: _ => if s.device = .active ∨ e.command.code = reloadCode then some e else none
  else none

/-- R149: an execution completes: its entry leaves the queue, its slot becomes FREE and its result is
handed to the write-back queue. -/
def State.complete (s : State) (e : IntakeEntry) (r : ResultCode) : State :=
  let s1 := { s with intake := { s.intake with queue := s.intake.queue.tail } }
  (s1.freeSlot e.slot).handOver (e.command.answer e.slot r)

/-- What a command does: the state it leaves, and its result. -/
abbrev Effect := Command → State → State × ResultCode

/-- R148, R149: the execution of the command at the head of the intake queue, where it is one that
`isMine` names. Where the intake has no such command to execute, the event does not occur
(notes/assumptions/2.md). -/
def State.runIf (s : State) (isMine : Nat → Bool) (eff : Effect) : State :=
  match s.quiet.nextCommand with
  | none => s.quiet
  | some e =>
    if isMine e.command.code then
      let r := eff e.command s.quiet
      r.1.complete e r.2
    else s.quiet

/-- The execution of the command of one code. -/
def State.run (s : State) (code : Nat) (eff : Effect) : State := s.runIf (fun k => k == code) eff

/-- R151: an argument that the command does not take. -/
def orBadArg {α : Type} (a : Option α) (s : State) (f : α → State × ResultCode) : State × ResultCode :=
  match a with
  | none => (s, .badArg)
  | some x => f x

/-- R2: the result of a command over lanes. -/
def laneResult (r : State × Option ResultCode) : State × ResultCode := (r.1, r.2.getD .ok)

/-- R2: a lane action on the lanes that the short argument names; a mask that names none is refused. -/
def maskEffect (a : LaneAction) (c : Command) (s : State) : State × ResultCode :=
  if c.laneMask = 0 then (s, .badArg)
  else laneResult (State.overLanes (fun s n => s.actOnLane a n) s (maskLanes c.laneMask))

end Sys2Proof.Machine
end

