-- ==== Sys2Proof/Machine/LaneCommands.lean ====
section
/-! DEFINITION. The commands that name lanes: LANE_FORM, LANE_MOTION, TAKE, START, STOP, HOLD, RESUME
(spec/01) and RESTORE (R139). -/

namespace Sys2Proof.Machine

/-- The active width of the loaded configuration; 0 where there is none. -/
def State.activeWidth (s : State) : Nat := (s.conf.decode.map fun d => d.width).getD 0

/-- The active lines of the loaded configuration; 0 where there is none. -/
def State.activeLines (s : State) : Nat := (s.conf.decode.map fun d => d.lines).getD 0

/-- R3, R5, R6: LANE_FORM: the argument checks, the clamp, the kind check and the overlap check. -/
def laneFormEffect : Effect := fun c s =>
  orBadArg c.lane s fun n =>
  orBadArg (c.formFor s.activeWidth s.activeLines) s fun f =>
    let l := s.lane n
    if l.state ≠ .off ∧ f.kind ≠ l.form.kind then (s, .badState)
    else if s.overlaps n f then (s, .overlap)
    else (s.setLane n (l.offerForm f), .ok)

/-- LANE_FORM. -/
def execLaneForm (s : State) : Host.Outcome State Fault Refusal := .next (s.run 0x10 laneFormEffect)

/-- R4, R5: LANE_MOTION. -/
def laneMotionEffect : Effect := fun c s =>
  orBadArg c.lane s fun n => (s.setLane n ((s.lane n).offerMotion c.motion), .ok)

/-- LANE_MOTION. -/
def execLaneMotion (s : State) : Host.Outcome State Fault Refusal :=
  .next (s.run 0x11 laneMotionEffect)

/-- TAKE (R7). -/
def execTake (s : State) : Host.Outcome State Fault Refusal := .next (s.run 0x12 (maskEffect .take))

/-- START (R10). -/
def execStart (s : State) : Host.Outcome State Fault Refusal := .next (s.run 0x13 (maskEffect .start))

/-- R11: STOP: a mode outside its set refuses the whole command. -/
def stopEffect : Effect := fun c s => orBadArg c.stopMode s fun a => maskEffect a c s

/-- STOP. -/
def execStop (s : State) : Host.Outcome State Fault Refusal := .next (s.run 0x14 stopEffect)

/-- HOLD (R12). -/
def execHold (s : State) : Host.Outcome State Fault Refusal := .next (s.run 0x15 (maskEffect .hold))

/-- RESUME (R12). -/
def execResume (s : State) : Host.Outcome State Fault Refusal :=
  .next (s.run 0x16 (maskEffect .resume))

/-- R139: the named lanes of a RESTORE, ascending. -/
def State.restoreLanes (s : State) (toRunning : Bool) (lanes : List (Fin 4)) : State :=
  lanes.foldl (fun s n => s.setLane n ((s.lane n).restore toRunning)) s

/-- R139: RESTORE. Clearing the latch releases the cue outputs, which stay low. -/
def restoreEffect : Effect := fun c s =>
  orBadArg c.restoreTarget s fun toRunning =>
    if c.laneMask = 0 then (s, .badArg)
    else if !s.pins.killN then (s, .lineActive)
    else
      let s1 := { s with cue := { s.cue with latch := false } }
      (s1.restoreLanes toRunning (maskLanes c.laneMask), .ok)

/-- RESTORE. -/
def execRestore (s : State) : Host.Outcome State Fault Refusal := .next (s.run 0x17 restoreEffect)

end Sys2Proof.Machine
end

