-- ==== Sys2Proof/Machine/Cues.lean ====
section
/-! DEFINITION. The cue unit: sampling of the cue inputs at a line start, captures, and the setting of
the kill latch (spec/08, 8.3 to 8.5). -/

namespace Sys2Proof.Machine

/-- Replace a cue input. -/
def State.setInput (s : State) (n : Fin 4) (i : CueInput) : State :=
  { s with cue := { s.cue with inputs := s.cue.inputs.set n i } }

/-! ### Sampling (R132) -/

/-- R132: an input takes a sample: last sample, run count and accepted level. -/
def CueInput.sample (i : CueInput) (level : Bool) : CueInput :=
  let run := if level = i.last then min 3 (i.run + 1) else 1
  { i with last := level, run := run,
           accepted := if !i.filter || run == 3 then level else i.accepted }

/-- R132: whether a change of the accepted level is an edge that the setting selects. -/
def Edge.selects (e : Edge) (old new : Bool) : Bool :=
  match e with
  | .rise => !old && new
  | .fall => old && !new
  | .both => old != new

/-! ### Captures (R134) -/

/-- R134: the entry that a capture reads on a lane: the placed entry covering O_px plus the current
cue column. -/
def Lane.atCue (l : Lane) : Option (Nat × Placement) :=
  l.covering ((l.offsetPx : Int) + (l.motion.cueColumn : Int))

/-- R134: the capture record after a capture of lane `n`. -/
def Capture.taken (c : Capture) (s : State) (n : Fin 4) : Capture :=
  let e := (s.lane n).atCue.map Prod.fst
  { valid := true, overwritten := c.valid, lane := n, item := e,
    tag := e.map fun i => (s.item i).tag, count := s.rep.count }

/-- R134: a CAPTURE action of input `n`, on the lowest-numbered lane of its mask. -/
def State.captureCue (s : State) (n : Fin 4) : State :=
  let i := s.cue.inputs.get n
  match maskLanes i.mask with
  | [] => s
  | m :: _ => (s.setInput n { i with capture := i.capture.taken s m }).raise (.cueCapture n)

/-! ### The line start (R131, R133) -/

/-- R133: an input's action, fired by a selected edge. -/
def State.fireCue (s : State) (n : Fin 4) : State :=
  match (s.cue.inputs.get n).action with
  | .none => s
  | .capture => s.captureCue n
  | .lane a => s.fireOnLanes a (s.cue.inputs.get n).mask

/-- R132, R133: the sampling of one input at a line start, with the action it fires. -/
def State.sampleCue (s : State) (n : Fin 4) : State :=
  let i := s.cue.inputs.get n
  let i' := i.sample (s.pins.cueIn.get n)
  let s' := s.setInput n i'
  if i.edge.selects i.accepted i'.accepted then s'.fireCue n else s'

/-- R131: whether a frame line is a line start. -/
def State.lineStarts (s : State) (line : Nat) : Bool := s.cue.lineReg != some line

/-! ### The kill latch (R137) -/

/-- R137, R136, R18: the setting of the kill latch. -/
def State.setLatch (s : State) : State :=
  let s1 := s.killLanes
  { s1 with cue := { s1.cue with latch := true, out0 := false, out1 := false } }.raise .breakIn

/-- R137: a fall of KILL_N: it sets the latch, or finds it set and sets BREAK_IN again. -/
def State.killFall (s : State) : State := if s.cue.latch then s.raise .breakIn else s.setLatch

end Sys2Proof.Machine
end

