-- ==== Sys2Proof/Machine/Image.lean ====
section
/-! DEFINITION. The configuration image (spec/11, R167, R168, R118, R119; spec/12, 12.6, R174). The
scan answers for the bytes received so far: the image fails with a reason, more bytes are called for,
or the whole image has passed. A wrong value fails the load at the first byte that shows it, as
notes/assumptions/14.md reads that. -/

namespace Sys2Proof.Machine

/-- What a prefix of the image shows. -/
inductive Scan (α : Type) where
  | fail (r : LoadReason)
  | more
  | done (a : α)
  deriving DecidableEq, Repr

/-- What CONFIG gives (R168). -/
structure ImageConfig where
  anchor     : Option Word
  flow       : Option FlowMode
  stall      : Option Nat
  decode     : DecodeConfig
  rate       : FieldRate
  reportLine : Nat
  deriving DecidableEq, Repr

/-- What the sections read so far give. -/
structure Image where
  config : Option ImageConfig
  styles : Option (List (Nat × Style))
  fonts  : Four (Option Font)
  deriving DecidableEq, Repr

/-- No section read. -/
def Image.empty : Image := { config := none, styles := none, fonts := Four.all none }

/-! ### Fields of a body of which only a prefix may have been received -/

/-- The little-endian field of `n` bytes at an offset, from the bytes received; a byte not yet
received counts as 0, so the number is a lower bound of the field. -/
def fieldSoFar (bs : List Byte) (off n : Nat) : Nat := leNat ((bs.drop off).take n)

/-- Whether a field has been received whole. -/
def fieldWhole (bs : List Byte) (off n : Nat) : Bool := decide (off + n ≤ bs.length)

/-- The least value from `lo` on that a field can still take: it ends in the bytes received. -/
def fieldLeast (bs : List Byte) (off n lo : Nat) : Nat :=
  let v := fieldSoFar bs off n
  let unit := 256 ^ ((bs.drop off).take n).length
  v + unit * ((lo - v + (unit - 1)) / unit)

/-- The field can take no value of its range `lo` to `hi`. -/
def fieldOut (bs : List Byte) (off n lo hi : Nat) : Bool := decide (hi < fieldLeast bs off n lo)

/-- The values that the byte at an offset can still take. -/
def byteChoices (bs : List Byte) (off : Nat) : List Nat :=
  if fieldWhole bs off 1 then [fieldSoFar bs off 1] else List.range 256

/-- Whether a 16-bit field can still take a value that `ok` holds of, which is at most `most`. -/
def fieldMay (bs : List Byte) (off most : Nat) (ok : Nat → Bool) : Bool :=
  (byteChoices bs (off + 1)).any fun hi =>
    decide (256 * hi ≤ most) && (byteChoices bs off).any fun lo => ok (lo + 256 * hi)

/-- The field is no multiple of `m`, a power of two: its low bytes show it. -/
def fieldUneven (bs : List Byte) (off n m : Nat) : Bool := fieldSoFar bs off n % m != 0

/-- The word of a field. -/
def wordField (bs : List Byte) (off : Nat) : Word := BitVec.ofNat 32 (fieldSoFar bs off 4)

/-- A bit of a byte at an offset. -/
def bitField (bs : List Byte) (off bit : Nat) : Bool := (bs.getD off 0).getLsbD bit

/-! ### CONFIG (R168, R174) -/

/-- R168, R92: whether no CONFIG body that begins with the bytes received keeps the ranges. Each bound
between two fields asks for the least value of one, so a field still to come counts as its least. -/
def configBad (bs : List Byte) : Bool :=
  let pitch := fieldLeast bs 16 4 256
  let width := fieldLeast bs 20 2 64
  let lines := fieldLeast bs 22 2 64
  let n := fieldLeast bs 24 2 1
  fieldOut bs 0 4 0 7 ||
  (bitField bs 0 0 && fieldUneven bs 4 4 65536) ||
  fieldUneven bs 8 4 64 || fieldUneven bs 12 4 64 || fieldUneven bs 16 4 64 ||
  fieldOut bs 20 2 64 4096 || decide (pitch < 4 * width) ||
  fieldOut bs 22 2 64 2200 ||
  decide (4294967296 < fieldSoFar bs 8 4 + lines * pitch) ||
  decide (4294967296 < fieldSoFar bs 12 4 + lines * pitch) ||
  fieldOut bs 24 2 1 65535 || fieldOut bs 26 2 1 n ||
  fieldOut bs 28 2 0 (lines - 1) ||
  fieldOut bs 30 1 0 1 ||
  (bitField bs 0 1 && fieldOut bs 31 1 0 1) ||
  (bitField bs 0 2 && fieldOut bs 32 1 1 255)

/-- R168, 12.6: the CONFIG of a whole body. -/
def configOf (bs : List Byte) : ImageConfig :=
  { anchor := if bitField bs 0 0 then some (wordField bs 4) else none
    flow := if bitField bs 0 1 then some (if fieldSoFar bs 31 1 = 1 then .pass else .hold) else none
    stall := if bitField bs 0 2 then some (fieldSoFar bs 32 1) else none
    decode :=
      { base0 := wordField bs 8, base1 := wordField bs 12, pitch := fieldSoFar bs 16 4,
        width := fieldSoFar bs 20 2, lines := fieldSoFar bs 22 2,
        interlaced := fieldSoFar bs 30 1 == 1 }
    rate := { n := fieldSoFar bs 24 2, d := fieldSoFar bs 26 2 }
    reportLine := fieldSoFar bs 28 2 }

/-- R168: the CONFIG body, of which `bs` has been received. -/
def scanConfig (bs : List Byte) : Scan ImageConfig :=
  if configBad bs then .fail .format else if bs.length < 36 then .more else .done (configOf bs)

/-! ### STYLE (R119, R174) -/

/-- R119: whether the bytes received of a style record hold a value outside its range. -/
def styleBad (seen : List (Nat × Style)) (bs : List Byte) : Bool :=
  fieldOut bs 0 1 0 31 ||
  (fieldWhole bs 0 1 && seen.any fun e => e.1 == fieldSoFar bs 0 1) ||
  fieldOut bs 36 2 0 256 || fieldOut bs 38 1 0 3 || fieldOut bs 39 1 0 63 || fieldOut bs 40 2 0 1023 ||
  fieldOut bs 43 1 0 15 || fieldOut bs 44 1 0 15 || fieldOut bs 45 1 0 15 || fieldOut bs 46 1 0 15

/-- 12.6: the style of a whole record; a hold byte of 0 is taken as 1. -/
def styleOf (bs : List Byte) : Style :=
  let color (i : Nat) := colorOfWord (wordField bs (4 + 4 * i))
  { colors := { fill := color 0, text := color 1, up := color 2, down := color 3, flat := color 4,
                halt := color 5 }
    flash := { flashUp := color 6, flashDown := color 7, alpha := fieldSoFar bs 36 2,
               legalize := bitField bs 42 3, attack := fieldSoFar bs 43 1,
               decay := fieldSoFar bs 44 1, release := fieldSoFar bs 45 1,
               sustain := fieldSoFar bs 46 1, hold := max 1 (fieldSoFar bs 47 1) }
    width := { font := fieldSoFar bs 38 1, pad := fieldSoFar bs 39 1,
               minWidth := fieldSoFar bs 40 2, separators := bitField bs 42 0,
               percent := bitField bs 42 1, seconds := bitField bs 42 2 } }

/-- R119, R174: the records of a STYLE body, `n` of them to come, of which `bs` has been received. -/
def scanStyles : Nat → List (Nat × Style) → List Byte → Scan (List (Nat × Style))
  | 0, acc, _ => .done acc
  | n + 1, acc, bs =>
    let r := bs.take 48
    if styleBad acc r then .fail .format
    else if bs.length < 48 then .more
    else scanStyles n (acc ++ [(fieldSoFar r 0 1, styleOf r)]) (bs.drop 48)

/-! ### FONT (R118, R174) -/

/-- 12.6: the nibbles of bytes, the first in the low half. -/
def nibblesOf (bs : List Byte) : List Nibble :=
  bs.flatMap fun b => [b.extractLsb' 0 4, b.extractLsb' 4 4]

/-- R118: a bitmap of `w` columns and `h` rows cut to its first `cut` columns. -/
def cutBitmap (w h cut : Nat) (ns : List Nibble) : List Nibble :=
  (List.range h).flatMap fun r => ((ns.drop (r * w)).take w).take cut

/-- R118: the glyph of a record: its advance, 0xFF being the font's default, and its bitmap cut. -/
def glyphOf (height dflt adv w : Nat) (body : List Byte) : Glyph :=
  let a := if adv = 255 then dflt else adv
  { advance := a, width := min w a, nibbles := cutBitmap w height (min w a) (nibblesOf body) }

/-- 12.6: the length of a glyph record. -/
def glyphRecordLength (height w : Nat) : Nat := 4 + (w * height + 1) / 2

/-- R118, 12.6: whether `n` glyph records of this height can fill `left` bytes. A bitmap of width
`2 k + o`, `o` at most 1 and `k` at most 127, takes `height * k` bytes and, where `o` is 1,
`(height + 1) / 2` more, so the records fill the bytes where some number `o` of odd widths does. -/
def recordsFit (height n left : Nat) : Bool :=
  decide (4 * n ≤ left) &&
    (List.range (n + 1)).any fun o =>
      let odd := o * ((height + 1) / 2)
      let even := left - 4 * n - odd
      decide (odd ≤ left - 4 * n) && even % height == 0 && decide (even / height ≤ 127 * n)

/-- R118, R174: the glyph records of a font, `n` of them to come in `left` bytes, of which `bs` has
been received. A record's width byte gives its length: the body fails with that byte when the later
records cannot fill the bytes it leaves (notes/assumptions/14.md). -/
def scanGlyphs (height dflt : Nat) :
    Nat → Nat → List Nat → Store Glyph → List Byte → Scan (Store Glyph)
  | 0, left, _, acc, _ => if left = 0 then .done acc else .fail .format
  | n + 1, left, seen, acc, bs =>
    if fieldWhole bs 0 1 && seen.contains (fieldSoFar bs 0 1) then .fail .format
    else if fieldWhole bs 1 1 && decide (64 < fieldSoFar bs 1 1) && fieldSoFar bs 1 1 != 255 then
      .fail .format
    else if !fieldWhole bs 2 1 then .more
    else
      let code := fieldSoFar bs 0 1
      let w := fieldSoFar bs 2 1
      let len := glyphRecordLength height w
      if left < len ∨ recordsFit height n (left - len) = false then .fail .format
      else if bs.length < len then .more
      else
        let g := glyphOf height dflt (fieldSoFar bs 1 1) w ((bs.take len).drop 4)
        scanGlyphs height dflt n (left - len) (code :: seen)
          (if g.advance = 0 then acc else Store.put Glyph.undefined acc code g) (bs.drop len)

/-- R118: code 0x00 left undefined is defined as a blank glyph of advance height div 2. -/
def withZeroGlyph (height : Nat) (gs : Store Glyph) : Store Glyph :=
  if (Store.get Glyph.undefined gs 0).advance = 0 then
    Store.put Glyph.undefined gs 0 { advance := height / 2, width := 0, nibbles := [] }
  else gs

/-- R118, R174: whether a font of at most 256 glyphs can fill a body of `len` bytes, its height having
been received. -/
def fontFits (len : Nat) (bs : List Byte) : Bool :=
  fieldMay bs 2 256 fun n => decide (n ≤ 256) && recordsFit (fieldSoFar bs 0 1) n (len - 4)

/-- R118, R174: a FONT body of `len` bytes, of which `bs` has been received. -/
def scanFont (len : Nat) (bs : List Byte) : Scan Font :=
  let h := fieldSoFar bs 0 1
  let d := fieldSoFar bs 1 1
  if fieldOut bs 0 1 8 64 || fieldOut bs 1 1 1 64 || (fieldWhole bs 0 1 && !fontFits len bs) then
    .fail .format
  else if bs.length < 4 then .more
  else match scanGlyphs h d (fieldSoFar bs 2 2) (len - 4) [] [] (bs.drop 4) with
    | .fail r => .fail r
    | .more => .more
    | .done gs => .done { height := h, defaultAdvance := d, glyphs := withZeroGlyph h gs }

/-- R117, R118: the nibbles a font stores. -/
def Font.nibbleCount (f : Font) : Nat := (f.glyphs.map fun e => e.2.nibbles.length).sum

/-- R168: the stored nibbles of the fonts read. -/
def Image.nibbleCount (i : Image) : Nat :=
  (i.fonts.toList.map fun f => (f.map Font.nibbleCount).getD 0).sum

/-! ### Sections (R168, 12.6) -/

/-- 12.6: the types of section. -/
inductive SectionKind where
  | config
  | style
  | font (n : Fin 4)
  | finish
  deriving DecidableEq, Repr

/-- R168: the kind of a section type, none where it is not known or a section given at most once is
given again. -/
def sectionKind (i : Image) (ty : Nat) : Option SectionKind :=
  if ty = 0x01 then (if i.config.isSome then none else some .config)
  else if ty = 0x02 then (if i.styles.isSome then none else some .style)
  else if ty = 0xFF then some .finish
  else if 0x10 ≤ ty then
    match four? (ty - 0x10) with
    | some n => if (i.fonts.get n).isSome then none else some (.font n)
    | none => none
  else none

/-- R168, 12.6: whether sections with an END behind them can fill `room` bytes, and so be the rest of an
image. `config` says that the CONFIG is still to come, which takes 40 bytes, `style` and `font` that a
STYLE or a FONT may be. Behind the END's 4 bytes and the CONFIG, a STYLE takes 4 bytes and 48 for each
of up to 32 records; fonts take 8 bytes, 12, or any number from 16 on (`fontLength`). -/
def roomFits (config style font : Bool) (room : Nat) : Bool :=
  let least := if config then 44 else 4
  let more := room - least
  decide (least ≤ room) &&
    (more == 0 || (style && more % 48 == 4 && decide (more ≤ 1540)) ||
      (font && (more == 8 || more == 12 || decide (16 ≤ more))))

/-- R118, R174: a length that a FONT body can have: no record, one without a bitmap, or more. -/
def fontLength (len : Nat) : Bool := len == 4 || len == 8 || decide (12 ≤ len)

/-- R168, R174: whether a section at offset `off` can have a body of `len` bytes: its type takes that
length, it ends within the image of `total` bytes, and what is left there can hold the sections that
must follow. An END ends the image, behind its CONFIG (DESIGN CHOICE, notes/assumptions/14.md: an END
that is not the last section has no such length). -/
def sectionFits (total off : Nat) (i : Image) (kind : SectionKind) (len : Nat) : Bool :=
  let room := total - (off + 4 + len)
  let others := fun n : Option (Fin 4) => fours.any fun m => some m != n && (i.fonts.get m).isNone
  decide (off + 4 + len ≤ total) &&
    match kind with
    | .config => len == 36 && roomFits false i.styles.isNone (others none) room
    | .style => len % 48 == 0 && decide (len ≤ 1536) && roomFits i.config.isNone false (others none) room
    | .font n => fontLength len && roomFits i.config.isNone i.styles.isNone (others (some n)) room
    | .finish => len == 0 && i.config.isSome && room == 0

/-- R168, R174: a section's body of `len` bytes, of which `bs` has been received. -/
def scanBody (i : Image) (kind : SectionKind) (len : Nat) (bs : List Byte) : Scan Image :=
  match kind with
  | .config =>
    match scanConfig bs with
      | .fail r => .fail r
      | .more => .more
      | .done c => .done { i with config := some c }
  | .style =>
    match scanStyles (len / 48) [] bs with
      | .fail r => .fail r
      | .more => .more
      | .done ss => .done { i with styles := some ss }
  | .font n =>
    match scanFont len bs with
    | .fail r => .fail r
    | .more => .more
    | .done f =>
      let i' := { i with fonts := i.fonts.set n (some f) }
      if Config.nibbleMax < i'.nibbleCount then .fail .format else .done i'
  | .finish => .done i

/-- R168: the sections from offset `off`, the image ending at `total`; `fuel` bounds their number. A
section fails at the first byte of its header that leaves it no length that fits. -/
def scanSections (total : Nat) : Nat → Nat → Image → List Byte → Scan Image
  | 0, _, _, _ => .fail .format
  | fuel + 1, off, i, bs =>
    if !fieldWhole bs 0 1 then .more
    else match sectionKind i (fieldSoFar bs 0 1) with
      | none => .fail .format
      | some kind =>
        let len := fieldSoFar bs 2 2
        let stop := off + 4 + len
        if Config.imageMax < stop then .fail .imageOverrun
        else if !fieldMay bs 2 total (sectionFits total off i kind) then .fail .format
        else if !fieldWhole bs 2 2 then .more
        else match scanBody i kind len ((bs.drop 4).take len) with
          | .fail r => .fail r
          | .more => .more
          | .done i' =>
            if kind = .finish then .done i'
            else scanSections total fuel stop i' (bs.drop (4 + len))

/-- R168: what the bytes received so far show. -/
def scanImage (bs : List Byte) : Scan Image :=
  if fieldWhole bs 0 1 && fieldSoFar bs 0 1 != 0xC3 then .fail .blank
  else if fieldWhole bs 1 1 && fieldSoFar bs 1 1 != 0x5A then .fail .blank
  else if bs.length < 4 then .more
  else
    let total := 4 + fieldSoFar bs 2 2
    if Config.imageMax < total then .fail .imageOverrun
    else if !roomFits true true true (total - 4) then .fail .format
    else scanSections total total 4 Image.empty (bs.drop 4)

end Sys2Proof.Machine
end

