-- ==== Sys2Proof/Machine/Report.lean ====
section
/-! DEFINITION. The report block (R161 to R164, R173, R175; spec/12, 12.5): the snapshot, word by
word, and the report line event. -/

namespace Sys2Proof.Machine

/-! ### Codes of the report block (12.5) -/

/-- 12.5: device state. -/
def DeviceState.code : DeviceState → Nat
  | .loading => 0
  | .unconfigured => 1
  | .active => 2

/-- 12.5: loader status. -/
def LoaderStatus.code : LoaderStatus → Nat
  | .loading => 0
  | .done => 1
  | .failed => 2

/-- 12.5: the reason of the loader record; NONE is 0. -/
def reasonCode : Option LoadReason → Nat
  | none => 0
  | some .blank => 1
  | some .noDevice => 2
  | some .busTimeout => 3
  | some .imageOverrun => 4
  | some .format => 5

/-- 12.5: lane state. -/
def LaneState.code : LaneState → Nat
  | .off => 0
  | .armed => 1
  | .running => 2
  | .held => 3
  | .draining => 4
  | .fadingOut => 5
  | .killed => 6

/-- 12.5: resume target. -/
def Resume.code : Resume → Nat
  | .running => 0
  | .draining => 1

/-- A flag as a bit. -/
def bit01 (b : Bool) : Nat := if b then 1 else 0

/-- A word of four bytes, byte 0 first. -/
def bytesWord (b0 b1 b2 b3 : Nat) : Word :=
  BitVec.ofNat 32 (b0 % 256 + 256 * (b1 % 256) + 65536 * (b2 % 256) + 16777216 * (b3 % 256))

/-- A word of two halves, the lower first. -/
def halvesWord (lo hi : Nat) : Word := BitVec.ofNat 32 (lo % 65536 + 65536 * (hi % 65536))

/-! ### Records (12.5) -/

/-- R173: the head tag of a lane record, all ones where p is 0. -/
def State.headTagWord (s : State) (l : Lane) : Word :=
  match l.ring, l.placed with
  | e :: _, _ :: _ => (s.item e).tag.setWidth 32
  | _, _ => BitVec.allOnes 32

/-- 12.5: the lane record, eight words. -/
def State.laneRecord (s : State) (l : Lane) : List Word :=
  [bytesWord l.state.code l.resume.code (l.fade % 256) (l.fade / 256),
   BitVec.ofNat 32 l.offset,
   bytesWord l.placedCount l.ring.length l.passCount 0,
   halvesWord l.dwellCount 0,
   s.headTagWord l, 0, 0, 0]

/-- 12.5: the capture record, four words. -/
def Capture.record (c : Capture) : List Word :=
  [bytesWord (bit01 c.valid + 2 * bit01 c.overwritten) c.lane.val
      (c.item.getD 0xFFFF % 256) (c.item.getD 0xFFFF / 256),
   (match c.tag with
    | some t => t.setWidth 32
    | none => BitVec.allOnes 32),
   c.count, 0]

/-- 12.5: the word of cue levels. -/
def CueUnit.levelsWord (u : CueUnit) : Word :=
  BitVec.ofNat 32 (bit01 u.inputs.e0.accepted + 2 * bit01 u.inputs.e1.accepted +
    4 * bit01 u.inputs.e2.accepted + 8 * bit01 u.inputs.e3.accepted +
    16 * bit01 u.out0 + 32 * bit01 u.out1)

/-- 12.5: the words of the report block from 0x000 to 0x028. -/
def State.reportHead (s : State) : List Word :=
  [s.rep.count,
   bytesWord s.device.code (bit01 s.cue.latch) (bit01 s.pins.killN) 0,
   bytesWord s.loader.status.code (reasonCode s.loader.reason) 0 0,
   s.rep.events.setWidth 32,
   s.rep.mask.setWidth 32,
   s.clock.time.word,
   halvesWord s.clock.acc 0,
   bytesWord s.intake.queue.length 0 0 0,
   halvesWord s.intake.overrun s.intake.lastTag.toNat,
   halvesWord s.pendingCount 0,
   s.cue.levelsWord]

/-- R162, R173: the 128 words of the report block, every byte not named written as zero. -/
def State.reportWords (s : State) : List Word :=
  s.reportHead ++ List.replicate 5 0 ++
    s.lanes.toList.flatMap s.laneRecord ++
    s.cue.inputs.toList.flatMap (fun i => i.capture.record) ++
    List.replicate 63 0 ++ [s.rep.count]

/-! ### Snapshots (R161, R162, R164) -/

/-- R162, R156: a snapshot is taken and its report handed to the own-write source, behind the results
handed over before it. -/
def State.snapshot (s : State) : State :=
  { s with
    own := { s.own with reports := s.own.reports ++
      [{ anchor := s.conf.anchor, next := 0, words := s.reportWords,
         ahead := s.own.writeBack.length }] }
    rep := { s.rep with taken := true } }

/-- R161: a frame line handed over by a scan read is the report line event when it is at or beyond
the report line, the taken flag is clear and the previous report has been written. -/
def State.reportLineDue (s : State) (line : Nat) : Bool :=
  s.conf.reportLine.any (fun r => decide (r ≤ line)) && !s.rep.taken && s.own.reports.isEmpty

/-- R161: the report writer examines a frame line. -/
def State.examineLine (s : State) (line : Nat) : State :=
  if s.reportLineDue line then s.snapshot else s

end Sys2Proof.Machine
end

