-- ==== Sys2Proof/Machine/Loader.lean ====
section
/-! DEFINITION. The configuration loader (spec/11): the clearing of REINIT and RELOAD, the entry to
LOADING, the I2C read, the two ends of a load, power-on reset and its release. -/

namespace Sys2Proof.Machine

/-! ### Clearing (R170) -/

/-- R131: what REINIT leaves of a cue input: its sampling state. -/
def CueInput.clear (i : CueInput) : CueInput :=
  { CueInput.initial with last := i.last, run := i.run, accepted := i.accepted }

/-- R170: the clearing of REINIT. -/
def State.clearProgram (s : State) : State :=
  { s with
    lanes := Four.all Lane.initial
    items := []
    segments := []
    quotes := []
    styles := { s.styles with cur := s.styles.deflt, pend := s.styles.deflt }
    schedule := []
    cue := { s.cue with inputs := ⟨s.cue.inputs.e0.clear, s.cue.inputs.e1.clear,
                                   s.cue.inputs.e2.clear, s.cue.inputs.e3.clear⟩ }
    intake := { s.intake with overrun := 0, lastTag := 0 }
    rep := { s.rep with events := 0, mask := 0 } }

/-! ### The entry to LOADING (R150, R165, R171) -/

/-- R165: the loader record at each entry to LOADING; the loader waits for the bus (R167). -/
def Loader.begin : Loader := { status := .loading, reason := none, bus := .waiting, staging := [] }

/-- R150: every slot but the RELOAD's own is FREE, every assembly is zero. -/
def Intake.clearSlots (q : Intake) : Intake :=
  { q with slots :=
      match q.queue with
      | [] => []
      | r :: _ => Store.put CommandSlot.initial [] r.slot { CommandSlot.initial with inFlight := true } }

/-- R150, R171: the entry to LOADING of an accepted RELOAD, the queue holding it alone. -/
def State.enterLoading (s : State) : State :=
  let s1 := s.clearProgram
  State.releaseUnmerged
    { s1 with
      device := .loading
      loader := Loader.begin
      intake := { s1.intake.clearSlots with reload := some .loading } }

/-! ### The straps (R166) -/

/-- R166: the anchor the ANCHOR_SEL straps give. -/
def strapAnchor (t : Straps) : Word := 0x40000000 + t.anchorSel.setWidth 32 * 0x01000000

/-- R145, R166: the flow mode FLOW_SEL gives. -/
def strapFlow (t : Straps) : FlowMode := if t.flowSel then .pass else .hold

/-- The straps are read (R166). -/
def State.readStraps (s : State) (t : Straps) : State := { s with pins := { s.pins with straps := t } }

/-! ### The end of a load (R164, R169) -/

/-- R151: the result code of a loader reason. -/
def LoadReason.result : LoadReason → ResultCode
  | .blank => .blank
  | .noDevice => .noDevice
  | .busTimeout => .busTimeout
  | .imageOverrun => .imageOverrun
  | .format => .format

/-- R149, R150: a RELOAD waiting at the head of the queue completes when its load ends. -/
def State.completeReload (s : State) (r : ResultCode) : State :=
  match s.intake.reload, s.intake.queue with
  | some _, e :: rest =>
    let s1 := { s with intake := { s.intake with queue := rest, reload := none } }
    (s1.freeSlot e.slot).handOver (e.command.answer e.slot r)
  | _, _ => s

/-- R119: the default styles that a STYLE section gives. -/
def styleStore (ss : List (Nat × Style)) : Store Style :=
  ss.foldl (fun m e => Store.put Style.builtIn m e.1 e.2) []

/-- R118: the font of the image, the absent form where it gives none. -/
def imageFont (f : Option Font) : Font := f.getD Font.absent

/-- R169: what a successful load installs. -/
def State.install (s : State) (i : Image) (c : ImageConfig) : State :=
  let ss := styleStore (i.styles.getD [])
  { s with
    conf :=
      { anchor := c.anchor.getD (strapAnchor s.pins.straps), flow := c.flow.getD (strapFlow s.pins.straps),
        stall := c.stall.getD Config.stallDefault, decode := some c.decode, rate := some c.rate,
        reportLine := some c.reportLine }
    clock := { s.clock with acc := 0 }
    fonts := ⟨imageFont i.fonts.e0, imageFont i.fonts.e1, imageFont i.fonts.e2, imageFont i.fonts.e3⟩
    styles := { cur := ss, pend := ss, deflt := ss } }

/-- R169, R164: the whole image has passed. -/
def State.loadDone (s : State) (i : Image) (c : ImageConfig) : State :=
  let s1 := s.install i c
  let s2 : State :=
    { s1 with
      device := .active
      loader := { status := .done, reason := none, bus := .idle, staging := [] } }
  (s2.raise .loadDone).snapshot.completeReload .ok

/-- R169, R164, R157: a check or the bus has failed. -/
def State.loadFail (s : State) (r : LoadReason) : State :=
  let s1 : State :=
    { s with
      device := .unconfigured
      loader := { status := .failed, reason := some r, bus := .idle, staging := [] }
      conf := { anchor := strapAnchor s.pins.straps, flow := strapFlow s.pins.straps,
                stall := Config.stallDefault, decode := none, rate := none, reportLine := none }
      fonts := Four.all Font.absent
      rep := { s.rep with mask := s.rep.mask ||| Event.bit .loadFail } }
  (s1.raise .loadFail).snapshot.completeReload r.result

/-- R167: the loader issues a stop if it holds the bus and releases both lines. -/
def State.endBus (s : State) : State :=
  let s1 := match s.loader.bus with
    | .addressing => s.emit .i2cStop
    | .reading => s.emit .i2cStop
    | .idle => s
    | .waiting => s
  s1.emit .i2cRelease

/-- R167, R169: a failure ends the read at once. -/
def State.failLoad (s : State) (r : LoadReason) : State := s.endBus.loadFail r

/-- R168, R169: what the bytes received show. -/
def State.afterByte (s : State) : State :=
  match scanImage s.loader.staging with
  | .more => s
  | .fail r => s.failLoad r
  | .done i =>
    match i.config with
    | some c => s.endBus.loadDone i c
    | none => s.failLoad .format

/-- R168: a byte is read into the staging copy. -/
def State.receiveByte (s : State) (b : Byte) : State :=
  State.afterByte
    { s with loader := { s.loader with bus := .reading, staging := s.loader.staging ++ [b] } }

/-! ### Power-on reset (R166) -/

/-- R166: a low level on RESET_N. The levels of the input pins stay as the environment drives them;
the queue of commands is the environment's. -/
def State.powerOn (s : State) : State :=
  { State.reset with
    pending := s.pending
    out := [.i2cRelease]
    pins := { s.pins with resetN := false } }

/-- R166, R137, R165: RESET_N rises. -/
def State.releaseReset (s : State) (t : Straps) (killN : Bool) : State :=
  let s1 : State :=
    { s with
      pins := { s.pins with resetN := true, killN := killN, straps := t }
      conf := { s.conf with anchor := strapAnchor t, flow := strapFlow t, stall := Config.stallDefault }
      device := .loading
      loader := Loader.begin }
  if killN then s1 else s1.setLatch

end Sys2Proof.Machine
end

