-- ==== Sys2Proof/Machine/PinCommands.lean ====
section
/-! DEFINITION. The events of the pins and of the loader's I2C bus (R137, R166 to R169). -/

namespace Sys2Proof.Machine

/-- KILL_LATCH_SET (R137): KILL_N goes from high to low. While RESET_N is low only the level is taken
(R166). -/
def execKillLatchSet (s : State) : Host.Outcome State Fault Refusal :=
  .next (
    if s.pins.killN then
      let s1 := { s.quiet with pins := { s.pins with killN := false } }
      if s.pins.resetN then s1.killFall else s1
    else s.quiet)

/-- KILL_N_RISE (R137): the latch stays as it is. -/
def execKillNRise (s : State) : Host.Outcome State Fault Refusal :=
  .next { s.quiet with pins := { s.pins with killN := true } }

/-- POWER_ON_RESET (R166). -/
def execPowerOnReset (s : State) : Host.Outcome State Fault Refusal := .next s.powerOn

/-- RESET_RELEASE (R166). -/
def execResetRelease (straps : Straps) (killN : Bool) (s : State) : Host.Outcome State Fault Refusal :=
  .next (if s.pins.resetN then s.quiet else s.quiet.releaseReset straps killN)

/-- BUS_FREE_START (R167): the loader starts, or starts again, at the first byte not received. -/
def execBusFreeStart (s : State) : Host.Outcome State Fault Refusal :=
  .next (
    if s.loader.bus = .waiting then
      { s.quiet with loader := { s.loader with bus := .addressing } }.emit
        (.i2cStart s.loader.staging.length)
    else s.quiet)

/-- R167: the loader holds the bus, its device addressed. -/
def BusPhase.holds : BusPhase → Bool
  | .addressing => true
  | .reading => true
  | .idle => false
  | .waiting => false

/-- IMAGE_BYTE_RECEIVED (R168, R169). -/
def execImageByteReceived (b : Byte) (straps : Straps) (s : State) : Host.Outcome State Fault Refusal :=
  .next (
    if s.loader.bus.holds then (s.quiet.readStraps straps).receiveByte b else s.quiet)

/-- NO_DEVICE (R167): an acknowledge is missing while the device or the memory address is addressed. -/
def execNoDevice (straps : Straps) (s : State) : Host.Outcome State Fault Refusal :=
  .next (
    if s.loader.bus = .addressing then (s.quiet.readStraps straps).failLoad .noDevice else s.quiet)

/-- ARBITRATION_LOST (R167): the loader waits for the bus. -/
def execArbitrationLost (s : State) : Host.Outcome State Fault Refusal :=
  .next (
    if s.loader.bus.holds then
      { s.quiet with loader := { s.loader with bus := .waiting } }.emit .i2cRelease
    else s.quiet)

/-- BUS_TIMEOUT (R167): a wait of more than 2 s, or SCL held low for more than 25 ms. -/
def execBusTimeout (straps : Straps) (s : State) : Host.Outcome State Fault Refusal :=
  .next (
    if s.loader.bus = .idle then s.quiet else (s.quiet.readStraps straps).failLoad .busTimeout)

end Sys2Proof.Machine
end

