-- ==== Sys2Proof/Machine/PortCommands.lean ====
section
/-! DEFINITION. The events of the three ports: system-port transactions and the held write (R144,
R153), the memory port's arbiter and the part's own writes (R155, R156, R162), and the scan port (R93,
R94, R96, R131, R161). While RESET_N is low the ports take no transactions (R166). -/

namespace Sys2Proof.Machine

/-! ### The system port -/

/-- SYSTEM_WRITE (R153). -/
def execSystemWrite (t : WriteTxn) (s : State) : Host.Outcome State Fault Refusal :=
  .next (if s.pins.resetN then s.quiet.present (.write t) else s.quiet)

/-- SYSTEM_READ (R153): it passes to memory, and memory's answer returns. -/
def execSystemRead (t : ReadTxn) (s : State) : Host.Outcome State Fault Refusal :=
  .next (if s.pins.resetN then s.quiet.present (.read t) else s.quiet)

/-- HELD_WRITE_RELEASE (R144, R147): a held write whose room has come is decided again. -/
def execHeldWriteRelease (s : State) : Host.Outcome State Fault Refusal :=
  .next (if s.heldDue then s.quiet.releaseHeld else s.quiet)

/-- STALL_LIMIT_EXPIRY (R144): where the room came first, the stall limit is abandoned. -/
def execStallLimitExpiry (s : State) : Host.Outcome State Fault Refusal :=
  .next (if s.heldDue then s.quiet else s.quiet.expireHeld)

/-! ### The arbiter and the own writes -/

/-- R155: the source granted when the memory port can take a new transaction. -/
def grant (scanWaits sysWaits ownWaits : Bool) : Option Source :=
  if scanWaits then some .scan
  else if sysWaits then some .system
  else if ownWaits then some .own
  else none

/-- R156: the head result waits to be written: none of its write is under way, and no report handed
over before it is left. -/
def OwnWrites.resultWaits (o : OwnWrites) : Bool :=
  !o.writeBack.isEmpty && !o.headWritten &&
    match o.reports with
    | [] => true
    | r :: _ => decide (0 < r.ahead)

/-- R156: a report beat waits to be written: the results handed over before the snapshot have been
written. DESIGN CHOICE (notes/assumptions/25.md): a result counts as written once its write has been
granted, so the last of them may still await memory's response. -/
def OwnWrites.reportWaits (o : OwnWrites) : Bool :=
  match o.reports with
  | [] => false
  | r :: _ => decide (r.ahead ≤ (if o.headWritten then 1 else 0))

/-- 12.2: the result codes. -/
def ResultCode.code : ResultCode → Nat
  | .ok => 0x00
  | .badCommand => 0x01
  | .badArg => 0x02
  | .badState => 0x03
  | .inUse => 0x04
  | .full => 0x05
  | .notFound => 0x06
  | .overlap => 0x07
  | .killed => 0x08
  | .lineActive => 0x09
  | .slotBusy => 0x0A
  | .notReady => 0x0B
  | .aborted => 0x0C
  | .blank => 0x20
  | .noDevice => 0x21
  | .busTimeout => 0x22
  | .imageOverrun => 0x23
  | .format => 0x24

/-- 12.2: the result word: command code, result code, tag. -/
def ResultWord.word (r : ResultWord) : Word := r.tag ++ BitVec.ofNat 8 r.result.code ++ r.code

/-- The size of the part's own writes, whole beats (notes/assumptions/6.md). -/
def ownSize : BeatSize := 4

/-- The index of the beat at an offset in the aperture. -/
def beatIndex (anchor : Word) (off : Nat) : BitVec 28 := BitVec.ofNat 28 ((anchor.toNat + off) / 16)

/-- R149, R155: the beat that writes word 6 of a slot, with the enables of word 6 alone set. -/
def resultBeat (anchor : Word) (r : ResultWord) : Beat :=
  { index := beatIndex anchor (32 * r.slot + 16), low := 0, data := r.word.setWidth 128 <<< 64,
    enables := 0x0F00 }

/-- R156: the head result is written at the anchor in force; memory's response is awaited. -/
def State.writeResult (s : State) : State :=
  match s.own.writeBack with
  | [] => s
  | r :: _ =>
    { s with own := { s.own with headWritten := true } }.emitWrite .own ownSize
      [resultBeat s.conf.anchor r]

/-- RESULT_WRITE (R155, R156): the arbiter grants the own-write source and the head result waits. -/
def execResultWrite (scanWaits sysWaits : Bool) (s : State) : Host.Outcome State Fault Refusal :=
  .next (
    if s.pins.resetN && grant scanWaits sysWaits s.own.resultWaits == some .own then
      s.quiet.writeResult
    else s.quiet)

/-- R156: the head leaves the queue; a report behind it has one result fewer before it. -/
def OwnWrites.drain (o : OwnWrites) : OwnWrites :=
  { writeBack := o.writeBack.tail, headWritten := false,
    reports := o.reports.map fun r => { r with ahead := r.ahead - 1 } }

/-- WRITE_BACK_DRAIN (R156): memory responds to the head's write; an error removes it all the same. -/
def execWriteBackDrain (_reply : MemResp) (s : State) : Host.Outcome State Fault Refusal :=
  .next (if s.own.headWritten then { s.quiet with own := s.own.drain } else s.quiet)

/-- Four words in a beat, all enabled. -/
def fullBeat (index : BitVec 28) (ws : List Word) : Beat :=
  { index := index, low := 0, data := ws.getD 3 0 ++ ws.getD 2 0 ++ ws.getD 1 0 ++ ws.getD 0 0,
    enables := BitVec.allOnes 16 }

/-- R162: `n` beats of the report block from a beat number on. -/
def reportBeats (anchor : Word) : Nat → Nat → List Word → List Beat
  | 0, _, _ => []
  | n + 1, i, ws =>
    if ws.isEmpty then []
    else fullBeat (beatIndex anchor (0x800 + 16 * i)) (ws.take 4) ::
      reportBeats anchor n (i + 1) (ws.drop 4)

/-- R162, R155: the next `n` beats of the report are written; after the last the report is done. DESIGN
CHOICE (notes/assumptions/25.md): R161's "written to its last beat" is taken as its last beats being
granted, not as memory's response to them. -/
def State.writeReport (s : State) (n : Nat) : State :=
  match s.own.reports with
  | [] => s
  | r :: rest =>
    let left := r.words.drop (4 * n)
    { s with own := { s.own with reports :=
        if left.isEmpty then rest else { r with next := r.next + n, words := left } :: rest } }.emitWrite
      .own ownSize (reportBeats r.anchor n r.next r.words)

/-- REPORT_WRITE (R155, R162): the arbiter grants the own-write source and `more + 1` beats of the
report are written. -/
def execReportWrite (scanWaits sysWaits : Bool) (more : Fin 4) (s : State) :
    Host.Outcome State Fault Refusal :=
  .next (
    if s.pins.resetN && grant scanWaits sysWaits s.own.reportWaits == some .own then
      s.quiet.writeReport (more.val + 1)
    else s.quiet)

/-! ### The scan port -/

/-- The shares of a scan read not yet taken: the inputs to be sampled, the report writer's
examination. -/
structure ReadWork where
  cues   : List (Fin 4)
  report : Bool
  deriving DecidableEq, Repr

/-- R132, R161: the next share of a scan read on a frame line, each at most once. -/
def State.readTok (line : Nat) (r : State × ReadWork) (t : ReadTok) : State × ReadWork :=
  match t with
  | .cue n =>
    if r.2.cues.contains n then (r.1.sampleCue n, { r.2 with cues := r.2.cues.erase n }) else r
  | .report => if r.2.report then (r.1.examineLine line, { r.2 with report := false }) else r

/-- The shares that the order does not name: the inputs ascending, then the report writer. -/
def readDefault : List ReadTok := [.cue 0, .cue 1, .cue 2, .cue 3, .report]

/-- R94, R131, R161: a frame line is handed to the cue unit and to the report writer. -/
def State.handLine (s : State) (line : Nat) (order : List ReadTok) : State :=
  let w : ReadWork := { cues := if s.lineStarts line then fours else [], report := true }
  let s1 := { s with cue := { s.cue with lineReg := some line } }
  ((order ++ readDefault).foldl (State.readTok line) (s1, w)).1

/-- SCAN_READ (R93, R94): the read passes to memory; in ACTIVE its frame line, where it has one, is
handed on. -/
def execScanRead (addr : Word) (burst : Burst) (levels : Four Bool) (order : List ReadTok)
    (s : State) : Host.Outcome State Fault Refusal :=
  .next (
    if s.pins.resetN then
      let s1 :=
        { s.quiet with pins := { s.pins with cueIn := levels } }.emit
          (.memRead .scan addr burst.len burst.size)
      match s1.frameLine addr.toNat with
      | some line => if s1.device = .active then s1.handLine line order else s1
      | none => s1
    else s.quiet)

/-- SCAN_BEAT (R93, R96): a beat returned by memory is composited; one with an error is not. -/
def execScanBeat (index : BitVec 28) (words : Four Word) (reply : MemResp) (s : State) :
    Host.Outcome State Fault Refusal :=
  .next (
    if s.pins.resetN then
      match reply with
      | .okay => s.quiet.emit (.scanData (s.composeBeat (16 * index.toNat) words) .okay)
      | .error => s.quiet.emit (.scanData words .error)
    else s.quiet)

/-- SCAN_WRITE (R93): an error response; nothing is passed to memory and nothing changes. -/
def execScanWrite (_addr : Word) (s : State) : Host.Outcome State Fault Refusal :=
  .next (if s.pins.resetN then s.quiet.emit .scanWriteError else s.quiet)

end Sys2Proof.Machine
end

