-- ==== Sys2Proof/Machine/RingCommands.lean ====
section
/-! DEFINITION. The ring commands: ENQUEUE, DEQUEUE, CLEAR (spec/02, 2.2). -/

namespace Sys2Proof.Machine

/-- R23: an item joins a ring at the tail, or at position p for NEXT. -/
def Lane.enqueue (l : Lane) (item : Nat) (next : Bool) : Lane :=
  if next then { l with ring := l.ring.take l.placedCount ++ item :: l.ring.drop l.placedCount }
  else { l with ring := l.ring ++ [item] }

/-- R23: ENQUEUE, its checks in their order. -/
def enqueueEffect : Effect := fun c s =>
  orBadArg c.lane s fun n =>
  orBadArg c.position s fun next =>
  orBadArg c.itemIndex s fun i =>
    if !(s.item i).defined then (s, .badArg)
    else if s.itemInRing i then (s, .inUse)
    else if Config.ringMax ≤ (s.lane n).ring.length then (s, .full)
    else (s.setLane n ((s.lane n).enqueue i next), .ok)

/-- ENQUEUE. -/
def execEnqueue (s : State) : Host.Outcome State Fault Refusal := .next (s.run 0x20 enqueueEffect)

/-- R24: an item's entry leaves the ring where it is unplaced, and gets its no-repeat mark where it is
placed. -/
def Lane.dequeue (l : Lane) (pos : Nat) : Lane :=
  if pos < l.placedCount then
    { l with placed := l.placed.modify pos fun p => { p with noRepeat := true } }
  else { l with ring := l.ring.eraseIdx pos }

/-- R24: DEQUEUE. -/
def dequeueEffect : Effect := fun c s =>
  orBadArg c.lane s fun n =>
  orBadArg c.itemIndex s fun i =>
    if (s.lane n).ring.contains i then
      (s.setLane n ((s.lane n).dequeue ((s.lane n).ring.idxOf i)), .ok)
    else (s, .notFound)

/-- DEQUEUE. -/
def execDequeue (s : State) : Host.Outcome State Fault Refusal := .next (s.run 0x21 dequeueEffect)

/-- R26: CLEAR. -/
def clearEffect : Effect := fun c s =>
  orBadArg c.lane s fun n =>
    if (s.lane n).state = .off then (s.setLane n { s.lane n with ring := [] }, .ok)
    else (s, .badState)

/-- CLEAR. -/
def execClear (s : State) : Host.Outcome State Fault Refusal := .next (s.run 0x22 clearEffect)

end Sys2Proof.Machine
end

