-- ==== Sys2Proof/Machine/StationCommands.lean ====
section
/-! DEFINITION. The commands of the station clock, the schedule, the cue unit and the event bits
(spec/08; R159, R160). -/

namespace Sys2Proof.Machine

/-- R125: CLOCK_SET. -/
def clockSetEffect : Effect := fun c s =>
  orBadArg (timeArg c.w0) s fun t => ({ s with clock := { time := t, acc := 0 } }, .ok)

/-- CLOCK_SET. -/
def execClockSet (s : State) : Host.Outcome State Fault Refusal := .next (s.run 0x50 clockSetEffect)

/-- R127: SCHEDULE_SET. -/
def scheduleSetEffect : Effect := fun c s =>
  orBadArg c.scheduleArgs s fun a => (s.setSchedEntry a.1 a.2, .ok)

/-- SCHEDULE_SET. -/
def execScheduleSet (s : State) : Host.Outcome State Fault Refusal :=
  .next (s.run 0x51 scheduleSetEffect)

/-- R127: SCHEDULE_CLEAR: the selected entries take their reset values. -/
def scheduleClearEffect : Effect := fun c s =>
  ({ s with schedule := s.schedule.filter fun e => !c.entrySelector.getLsbD e.1 }, .ok)

/-- SCHEDULE_CLEAR. -/
def execScheduleClear (s : State) : Host.Outcome State Fault Refusal :=
  .next (s.run 0x52 scheduleClearEffect)

/-- R135: CUE_SET writes the four settings and leaves the sampling state and the capture record. -/
def cueSetEffect : Effect := fun c s =>
  orBadArg c.cueArgs s fun a =>
    (s.setInput a.input { s.cue.inputs.get a.input with
      filter := a.filter, edge := a.edge, action := a.action, mask := a.mask }, .ok)

/-- CUE_SET. -/
def execCueSet (s : State) : Host.Outcome State Fault Refusal := .next (s.run 0x53 cueSetEffect)

/-- R136: CUEOUT_LEVEL. -/
def cueoutLevelEffect : Effect := fun c s =>
  orBadArg c.levelOps s fun ops =>
    if s.cue.latch then (s, .killed)
    else ({ s with cue := { s.cue with out0 := ops.1.apply s.cue.out0,
                                       out1 := ops.2.apply s.cue.out1 } }, .ok)

/-- CUEOUT_LEVEL. -/
def execCueoutLevel (s : State) : Host.Outcome State Fault Refusal :=
  .next (s.run 0x54 cueoutLevelEffect)

/-- R159: EVENT_MASK. -/
def eventMaskEffect : Effect := fun c s =>
  orBadArg c.fill s fun fill =>
    ({ s with rep := { s.rep with mask := maskFill s.rep.mask c.eventSelector fill } }, .ok)

/-- EVENT_MASK. -/
def execEventMask (s : State) : Host.Outcome State Fault Refusal :=
  .next (s.run 0x60 eventMaskEffect)

/-- R134, R160: an acknowledged capture record. -/
def CueInput.acknowledge (i : CueInput) (selected : Bool) : CueInput :=
  if selected then { i with capture := { i.capture with valid := false, overwritten := false } } else i

/-- R160: EVENT_ACK. -/
def eventAckEffect : Effect := fun c s =>
  let sel := c.eventSelector
  ({ s with
     rep := { s.rep with events := eventsAck s.rep.events sel }
     cue := { s.cue with inputs :=
       ⟨s.cue.inputs.e0.acknowledge (sel.getLsbD 11), s.cue.inputs.e1.acknowledge (sel.getLsbD 12),
        s.cue.inputs.e2.acknowledge (sel.getLsbD 13), s.cue.inputs.e3.acknowledge (sel.getLsbD 14)⟩ } },
   .ok)

/-- EVENT_ACK. -/
def execEventAck (s : State) : Host.Outcome State Fault Refusal := .next (s.run 0x61 eventAckEffect)

end Sys2Proof.Machine
end

