-- ==== Sys2Proof/Machine/StoreCommands.lean ====
section
/-! DEFINITION. The commands of the item store, the text store and the style table (spec/07). -/

namespace Sys2Proof.Machine

/-- Replace an item record. -/
def State.setItem (s : State) (i : Nat) (it : Item) : State :=
  { s with items := Store.put Item.undefined s.items i it }

/-- R110: ITEM_DEFINE. -/
def itemDefineEffect : Effect := fun c s =>
  orBadArg c.itemIndex s fun i =>
  orBadArg c.itemRecord s fun it =>
    if s.itemPlaced i then (s, .inUse) else (s.setItem i it, .ok)

/-- ITEM_DEFINE. -/
def execItemDefine (s : State) : Host.Outcome State Fault Refusal :=
  .next (s.run 0x30 itemDefineEffect)

/-- R111: ITEM_DROP. -/
def itemDropEffect : Effect := fun c s =>
  orBadArg c.itemIndex s fun i =>
    if s.itemInRing i then (s, .inUse)
    else if (s.item i).defined then (s.setItem i Item.undefined, .ok)
    else (s, .ok)

/-- ITEM_DROP. -/
def execItemDrop (s : State) : Host.Outcome State Fault Refusal := .next (s.run 0x31 itemDropEffect)

/-- R116: a segment is in use when the reading of a placed TEXT item reaches it. -/
def State.segmentInUse (s : State) (k : Nat) : Bool :=
  s.lanes.toList.any fun l => l.entries.any fun e =>
    match (s.item e.1).source with
    | .text head => (s.textSegments head).contains k
    | .quote _ => false
    | .clock => false

/-- R115: one half of a segment's codes is replaced. -/
def Segment.write (g : Segment) (a : SegmentArgs) : Segment :=
  { count := a.count, next := a.next,
    codes := if a.upper then g.codes.take 12 ++ a.codes else a.codes ++ g.codes.drop 12 }

/-- R115: TEXT_SEGMENT. -/
def textSegmentEffect : Effect := fun c s =>
  orBadArg c.segmentArgs s fun a =>
    if s.segmentInUse a.index then (s, .inUse)
    else
      ({ s with segments :=
           Store.put Segment.empty s.segments a.index ((s.segment a.index).write a) }, .ok)

/-- TEXT_SEGMENT. -/
def execTextSegment (s : State) : Host.Outcome State Fault Refusal :=
  .next (s.run 0x32 textSegmentEffect)

/-- Replace the pending copy of a style. -/
def State.setPendingStyle (s : State) (k : Nat) (v : Style) : State :=
  { s with styles := { s.styles with pend := Store.put Style.builtIn s.styles.pend k v } }

/-- R120: STYLE_COLORS. -/
def styleColorsEffect : Effect := fun c s =>
  orBadArg c.styleIndex s fun k =>
    (s.setPendingStyle k { s.pendingStyle k with colors := c.sixColors }, .ok)

/-- STYLE_COLORS. -/
def execStyleColors (s : State) : Host.Outcome State Fault Refusal :=
  .next (s.run 0x40 styleColorsEffect)

/-- R121: STYLE_FORM. -/
def styleFormEffect : Effect := fun c s =>
  orBadArg c.styleIndex s fun k =>
  orBadArg c.flashFields s fun fl =>
  orBadArg c.widthFields s fun w =>
    if s.styleInUse k ∧ w ≠ (s.style k).width then (s, .inUse)
    else (s.setPendingStyle k { s.pendingStyle k with flash := fl, width := w }, .ok)

/-- STYLE_FORM. -/
def execStyleForm (s : State) : Host.Outcome State Fault Refusal :=
  .next (s.run 0x41 styleFormEffect)

end Sys2Proof.Machine
end

