-- ==== Sys2Proof/Machine/SystemCommands.lean ====
section
/-! DEFINITION. REINIT, RELOAD with its ABORTED answers, and a command whose code names no command
(R148, R150, R170, R171). -/

namespace Sys2Proof.Machine

/-- REINIT (R170). -/
def execReinit (s : State) : Host.Outcome State Fault Refusal :=
  .next (s.run 0x70 fun _ s => (s.clearProgram, .ok))

/-- R148: a code that names none of the 25 commands is answered BAD_COMMAND, with no effect. -/
def execBadCommand (s : State) : Host.Outcome State Fault Refusal :=
  .next (s.runIf (fun k => !commandCodes.contains k) fun _ s => (s, .badCommand))

/-- R171: RELOAD is refused in ACTIVE when a lane is in a state other than OFF. -/
def State.reloadRefused (s : State) : Bool :=
  s.device == .active && s.lanes.toList.any fun l => l.state != .off

/-- R150, R171: an accepted RELOAD: it stands at the head of the queue while the others are answered
ABORTED, and enters LOADING where there is no other. -/
def State.acceptReload (s : State) : State :=
  if s.intake.queue.tail.isEmpty then s.enterLoading
  else { s with intake := { s.intake with reload := some .aborting } }

/-- R150, R171: RELOAD at the head of the intake queue. -/
def State.runReload (s : State) : State :=
  match s.nextCommand with
  | none => s
  | some e =>
    if e.command.code ≠ reloadCode then s
    else if s.reloadRefused then s.complete e .badState
    else s.acceptReload

/-- RELOAD. -/
def execReload (s : State) : Host.Outcome State Fault Refusal := .next s.quiet.runReload

/-- R150: the ABORTED answers wait for room in the write-back queue beside the RELOAD's kept entry
(R148). They and a held write go on in the order in which their events come, so that a write may still be
held at the entry to LOADING (notes/assumptions/12.md). -/
def State.mayAbort (s : State) : Bool :=
  s.pins.resetN && s.intake.reload == some .aborting && s.resultRoom

/-- R150, R156: the next ABORTED answer, for the first entry behind the RELOAD; the last one is followed
by the entry to LOADING. -/
def State.abortNext (s : State) : State :=
  match s.intake.queue with
  | r :: e :: rest =>
    let s1 := { s with intake := { s.intake with queue := r :: rest } }
    let s2 := (s1.freeSlot e.slot).handOver (e.command.answer e.slot .aborted)
    if rest.isEmpty then s2.enterLoading else s2
  | _ => s

/-- ABORT_ANSWER (R150). -/
def execAbortAnswer (s : State) : Host.Outcome State Fault Refusal :=
  .next (if s.quiet.mayAbort then s.quiet.abortNext else s.quiet)

end Sys2Proof.Machine
end

