-- ==== Sys2Proof/Machine/Dispatch.lean ====
section
/-! DEFINITION. One arm per command, each a direct call of its meaning. -/

namespace Sys2Proof.Machine

def exec (i : Instr) (s : State) : Host.Outcome State Fault Refusal :=
  match i with
  | .laneForm => Sys2Proof.Machine.execLaneForm s
  | .laneMotion => Sys2Proof.Machine.execLaneMotion s
  | .take => Sys2Proof.Machine.execTake s
  | .start => Sys2Proof.Machine.execStart s
  | .stop => Sys2Proof.Machine.execStop s
  | .hold => Sys2Proof.Machine.execHold s
  | .resume => Sys2Proof.Machine.execResume s
  | .restore => Sys2Proof.Machine.execRestore s
  | .enqueue => Sys2Proof.Machine.execEnqueue s
  | .dequeue => Sys2Proof.Machine.execDequeue s
  | .clear => Sys2Proof.Machine.execClear s
  | .itemDefine => Sys2Proof.Machine.execItemDefine s
  | .itemDrop => Sys2Proof.Machine.execItemDrop s
  | .textSegment => Sys2Proof.Machine.execTextSegment s
  | .styleColors => Sys2Proof.Machine.execStyleColors s
  | .styleForm => Sys2Proof.Machine.execStyleForm s
  | .clockSet => Sys2Proof.Machine.execClockSet s
  | .scheduleSet => Sys2Proof.Machine.execScheduleSet s
  | .scheduleClear => Sys2Proof.Machine.execScheduleClear s
  | .cueSet => Sys2Proof.Machine.execCueSet s
  | .cueoutLevel => Sys2Proof.Machine.execCueoutLevel s
  | .eventMask => Sys2Proof.Machine.execEventMask s
  | .eventAck => Sys2Proof.Machine.execEventAck s
  | .reinit => Sys2Proof.Machine.execReinit s
  | .reload => Sys2Proof.Machine.execReload s
  | .badCommand => Sys2Proof.Machine.execBadCommand s
  | .systemWrite t => Sys2Proof.Machine.execSystemWrite t s
  | .systemRead t => Sys2Proof.Machine.execSystemRead t s
  | .heldWriteRelease => Sys2Proof.Machine.execHeldWriteRelease s
  | .stallLimitExpiry => Sys2Proof.Machine.execStallLimitExpiry s
  | .abortAnswer => Sys2Proof.Machine.execAbortAnswer s
  | .resultWrite scanWaits sysWaits => Sys2Proof.Machine.execResultWrite scanWaits sysWaits s
  | .writeBackDrain reply => Sys2Proof.Machine.execWriteBackDrain reply s
  | .reportWrite scanWaits sysWaits more => Sys2Proof.Machine.execReportWrite scanWaits sysWaits more s
  | .scanRead addr burst levels order => Sys2Proof.Machine.execScanRead addr burst levels order s
  | .scanBeat index words reply => Sys2Proof.Machine.execScanBeat index words reply s
  | .scanWrite addr => Sys2Proof.Machine.execScanWrite addr s
  | .fieldStart parity order => Sys2Proof.Machine.execFieldStart parity order s
  | .passLimitReached lane => Sys2Proof.Machine.execPassLimitReached lane s
  | .pageEnd lane => Sys2Proof.Machine.execPageEnd lane s
  | .holdExpiry lane entry => Sys2Proof.Machine.execHoldExpiry lane entry s
  | .fadeOutEnd lane => Sys2Proof.Machine.execFadeOutEnd lane s
  | .secondTick => Sys2Proof.Machine.execSecondTick s
  | .killLatchSet => Sys2Proof.Machine.execKillLatchSet s
  | .powerOnReset => Sys2Proof.Machine.execPowerOnReset s
  | .resetRelease straps killN => Sys2Proof.Machine.execResetRelease straps killN s
  | .busFreeStart => Sys2Proof.Machine.execBusFreeStart s
  | .imageByteReceived byte straps => Sys2Proof.Machine.execImageByteReceived byte straps s
  | .noDevice straps => Sys2Proof.Machine.execNoDevice straps s
  | .arbitrationLost => Sys2Proof.Machine.execArbitrationLost s
  | .busTimeout straps => Sys2Proof.Machine.execBusTimeout straps s
  | .killNRise => Sys2Proof.Machine.execKillNRise s

end Sys2Proof.Machine
end

