-- ==== Sys2Proof/Safety.lean ====
section
/-! DEFINITION. What a sound state of the part is: the laws that the spec says the part keeps, each as
a property of one state, and the conditions under which a command's event occurs. -/

namespace Sys2Proof.Machine

/-! ### Frame lines (R6) -/

/-- R6: two forms share no frame line; an unformed lane has none (R1). -/
abbrev Form.apart (f g : Form) : Prop :=
  f.height = 0 ∨ g.height = 0 ∨ f.top + f.height ≤ g.top ∨ g.top + g.height ≤ f.top

/-- R6: the current and pending forms that a lane outside OFF holds against the other lanes. -/
def Lane.claims (l : Lane) : List Form :=
  if l.state = .off then [] else l.form :: l.pendForm.toList

/-- R6, R17: any two lanes outside OFF have disjoint lines in every combination of their current and
pending forms; a lane in OFF holds no pending form. -/
abbrev State.LinesLaw (s : State) : Prop :=
  (∀ n : Fin 4, (s.lane n).state = .off → (s.lane n).pendForm = none) ∧
  ∀ m n : Fin 4, m ≠ n → ∀ f ∈ (s.lane m).claims, ∀ g ∈ (s.lane n).claims, f.apart g

/-! ### The kill latch (R137, R136, R18) -/

/-- R137, R136, R18: while the latch is set both cue outputs are low and every lane is OFF or KILLED;
with RESET_N high, KILL_N low means that the latch is set. -/
abbrev State.KillLaw (s : State) : Prop :=
  (s.cue.latch = true →
    s.cue.out0 = false ∧ s.cue.out1 = false ∧
      ∀ n : Fin 4, (s.lane n).state = .off ∨ (s.lane n).state = .killed) ∧
  (s.pins.resetN = true → s.pins.killN = false → s.cue.latch = true)

/-! ### The bounds of a lane (R1, R4, R16, R17, R21, R22, R30, R41, R91, R175) -/

/-- R22: each placed entry starts at or beyond the end of the one before it. -/
def spaced (ps : List Placement) : Bool :=
  (ps.zip ps.tail).all fun e => decide (e.1.start + (e.1.width : Int) ≤ e.2.start)

/-- R17, R1: a lane at rest. -/
abbrev Lane.AtRest (l : Lane) : Prop :=
  l.placed = [] ∧ l.offset = 0 ∧ l.fade = 0 ∧ l.passCount = 0 ∧ l.dwellCount = 0

/-- The ranges that the spec gives the state of a lane. -/
abbrev Lane.Lawful (l : Lane) : Prop :=
  l.fade ≤ 256 ∧ l.ring.length ≤ 96 ∧ l.placed.length ≤ 48 ∧ l.placed.length ≤ l.ring.length ∧
  l.offset < 268435456 ∧ l.passCount ≤ 255 ∧ l.dwellCount ≤ 65535 ∧
  l.motion.speed ≤ 8191 ∧ (∀ m ∈ l.pendMotion, m.speed ≤ 8191) ∧
  l.motion.cueColumn ≤ l.laneWidth - 1 ∧
  (∀ f ∈ l.pendForm, f.kind = l.form.kind) ∧
  (l.form.kind = .flip → l.placed.length ≤ 1 ∧ l.offset = 0) ∧
  (l.form.kind = .crawl → l.dwellCount = 0) ∧
  (l.state = .off → l.AtRest ∧ l.pendForm = none ∧ l.pendMotion = none ∧ l.takeMark = false) ∧
  (l.state = .armed → l.AtRest) ∧
  (∀ p ∈ l.placed, p.env.level ≤ 65280) ∧
  spaced l.placed = true

/-- Every lane keeps its ranges. -/
abbrev State.LaneLaw (s : State) : Prop := ∀ n : Fin 4, (s.lane n).Lawful

/-! ### Rings and items (R22, R23, R109) -/

/-- R23, R109: an item stands in at most one ring, and once in it; every item of a ring is a defined
item of the store. -/
abbrev State.RingLaw (s : State) : Prop :=
  (s.lanes.toList.flatMap fun l => l.ring).Nodup ∧
  ∀ n : Fin 4, ∀ i ∈ (s.lane n).ring, i < 512 ∧ (s.item i).defined = true

/-! ### Device states (R165, R166, R54) -/

/-- R165, R166, R54: the loader reads only in LOADING and not while RESET_N is low, the part is in
LOADING then, and outside ACTIVE every lane is OFF with nothing placed and no pending flag is set. -/
abbrev State.DeviceLaw (s : State) : Prop :=
  (s.loader.bus ≠ .idle → s.device = .loading) ∧
  (s.pins.resetN = false → s.device = .loading ∧ s.loader.bus = .idle) ∧
  (s.device ≠ .active →
    (∀ n : Fin 4, (s.lane n).state = .off ∧ (s.lane n).placed = []) ∧
    ∀ e ∈ s.quotes, e.2.pend = none)

/-! ### The fit of placed quotes (R60, R53) -/

/-- R60, R53: a placed entry of a QUOTE item shows a slot that is not vacant, and the shown value's
width under its entry style is at most its frozen width. -/
def State.entryFits (s : State) (e : Nat × Placement) : Bool :=
  match (s.item e.1).source with
  | .quote k =>
    match (s.quote k).shown with
    | some v => decide (s.quoteWidth (s.style e.2.style) v ≤ e.2.width)
    | none => false
  | .text _ => true
  | .clock => true

/-- R60: no placed quote entry renders a shown value wider than its frozen width. -/
abbrev State.FitLaw (s : State) : Prop :=
  ∀ n : Fin 4, ∀ e ∈ (s.lane n).entries, s.entryFits e = true

/-! ### The stores' form -/

/-- Every numbered store is in its canonical form. -/
abbrev State.StoreLaw (s : State) : Prop :=
  Store.wf Item.undefined s.items = true ∧ Store.wf Segment.empty s.segments = true ∧
  Store.wf QuoteSlot.initial s.quotes = true ∧ Store.wf SchedEntry.initial s.schedule = true ∧
  Store.wf CommandSlot.initial s.intake.slots = true ∧ Store.wf Style.builtIn s.styles.cur = true ∧
  Store.wf Style.builtIn s.styles.pend = true ∧ Store.wf Style.builtIn s.styles.deflt = true

/-! ### The intake and the write-back queue (R140, R143, R148, R150, R156) -/

/-- The slots of the commands in the intake queue. -/
def Intake.queued (q : Intake) : List Nat := q.queue.map fun e => e.slot

/-- R140, R143, R148, R150, R156: the queues keep their depths, the kept entry counted; a slot is
IN_FLIGHT exactly while its one command is in the queue; a RELOAD under way stands at the head, alone
in LOADING. -/
abbrev State.IntakeLaw (s : State) : Prop :=
  s.intake.queue.length ≤ 64 ∧ s.writeBackTaken ≤ 16 ∧
  s.intake.queued.Nodup ∧ (∀ n ∈ s.intake.queued, n < 64) ∧
  (∀ n : Fin 64, (s.slot n.val).inFlight = true ↔ n.val ∈ s.intake.queued) ∧
  (s.intake.reload.isSome = true → s.intake.queue ≠ []) ∧
  (s.intake.reload = some .loading → s.intake.queue.length = 1 ∧ s.device = .loading)

/-! ### The station clock (R123, R124) -/

/-- R123, R124: the time of day is a BCD time; with a field rate N and D, 1 ≤ D ≤ N and acc is below
N. -/
abbrev State.ClockLaw (s : State) : Prop :=
  s.clock.time.valid = true ∧ ∀ r ∈ s.conf.rate, 1 ≤ r.d ∧ r.d ≤ r.n ∧ s.clock.acc < r.n

/-! ### A sound state -/

/-- All the laws together. -/
abbrev State.Sound (s : State) : Prop :=
  s.LinesLaw ∧ s.KillLaw ∧ s.LaneLaw ∧ s.RingLaw ∧ s.DeviceLaw ∧ s.FitLaw ∧ s.StoreLaw ∧
    s.IntakeLaw ∧ s.ClockLaw

/-! ### When a command's event occurs -/

/-- R148: the intake takes the command `e`, at the head of the queue, with this code: the part is out
of reset and in ACTIVE, no RELOAD is under way, the write-back queue has room and no held write that has found
room in the intake queue is to be decided first (R149). -/
abbrev State.Executes (s : State) (e : IntakeEntry) (code : Nat) : Prop :=
  s.intake.queue.head? = some e ∧ e.command.code = code ∧ s.pins.resetN = true ∧ s.device = .active ∧
    s.intake.reload = none ∧ s.own.writeBack.length < 16 ∧ s.heldFirst = false

/-- The system port is free: nothing is held and nothing waits. -/
abbrev State.PortFree (s : State) : Prop := s.port.held = none ∧ s.port.waiting = []

/-- R153, R155: what the ports drive for beats that are carried to memory with nothing taken of them, and
memory's response; `failed` tells of an error in an earlier part of the write. -/
def passBeats (size : BeatSize) (beats : List Beat) (failed : Bool) (replies : List MemResp) :
    List PortEvent :=
  if beats = [] then [.sysWriteResp (if failed then .error else .okay)]
  else
    [.memWrite .system size beats, .sysWriteResp (if failed then .error else replies.headD .okay)]

/-- R153: a transaction that passes with nothing taken of it. -/
def passTxn : SysTxn → List PortEvent
  | .write w => passBeats w.size w.beats false w.replies
  | .read r => [.memRead .system r.addr r.len r.size, .sysReadResp r.data r.reply]

/-- R150, R153: what the ports drive at the entry to LOADING: the held write's beats, unmerged, and then
the transactions that waited behind it. -/
def SysPort.unmerged (p : SysPort) : List PortEvent :=
  match p.held with
  | none => []
  | some h => passBeats h.size h.beats h.priorErr h.replies ++ p.waiting.flatMap passTxn

/-- R150: the port after the entry to LOADING. -/
def SysPort.released (p : SysPort) : SysPort :=
  match p.held with
  | none => p
  | some _ => { held := none, waiting := [] }

/-- The part is out of reset and in ACTIVE. -/
abbrev State.OnAir (s : State) : Prop := s.pins.resetN = true ∧ s.device = .active

end Sys2Proof.Machine
end

