-- ==== Sys2Proof/Certificates/Slice0/Obligations.lean ====
section
/-! DEFINITION. The statements for the provers: each `def Obligations.<Name> : Prop` states what rules of
spec/ say that a command, a block or the whole part does. A next state is given whole, so that what
it does not change is part of each statement. -/

section
open Sys2Proof Sys2Proof.Machine

/-! ### The queue, reset and completion -/

/-- The part takes the command at the front of its queue and carries it out with the queue's rest. The
queue is the model's own (notes/assumptions/1.md). -/
def Obligations.StepRunsFront : Prop :=
  ∀ (c : Instr) (rest : List Instr) (s : State),
    step { s with pending := c :: rest } = exec c { s with pending := rest }

/-- R166: a low level on RESET_N brings every block to its power-on values, from every state. That the
levels of the other input pins and the queue of commands are kept is the model's reading
(notes/assumptions/10.md). The values of the anchor, flow mode, device state and loader record while
RESET_N is low are the model's choice (notes/assumptions/9.md) and are not stated. -/
def Obligations.PowerOnResetValues : Prop :=
  ∀ s : State, ∃ t : State, exec .powerOnReset s = .next t ∧
    t.pending = s.pending ∧ t.out = [.i2cRelease] ∧ t.pins = { s.pins with resetN := false } ∧
    t.attn = false ∧
    (∀ n : Fin 4, t.lane n =
      { state := .off
        form := { kind := .crawl, top := 0, height := 0, left := 0, right := 0, style := 0 }
        motion := { speed := 0, gap := 16, dwell := 300, fade := 0, passLimit := 0, cueColumn := 0 }
        pendForm := none, pendMotion := none, takeMark := false, fade := 0, resume := .running
        motionOn := true, offset := 0, passCount := 0, dwellCount := 0, ring := [], placed := [] }) ∧
    (∀ i, t.item i =
      { defined := false, source := .text 0, override := none, repeats := false, marker := false
        cueOut := .none, tag := 0 }) ∧
    (∀ i, t.segment i = { count := 0, next := none, codes := List.replicate 24 0 }) ∧
    (∀ n, t.quote n = { asm := List.replicate 16 0, pend := none, shown := none }) ∧
    (∀ n : Fin 4, (t.fonts.get n).height = 8 ∧ (t.fonts.get n).defaultAdvance = 4 ∧
      (t.fonts.get n).glyph 0 = { advance := 4, width := 0, nibbles := [] } ∧
      ∀ code, code ≠ 0 → ((t.fonts.get n).glyph code).advance = 0) ∧
    (let white : Color := { y := 940, cb := 512, cr := 512 }
     let builtIn : Style :=
       { colors := { fill := { y := 64, cb := 512, cr := 512 }, text := white, up := white
                     down := white, flat := white, halt := white }
         flash := { flashUp := white, flashDown := white, alpha := 256, legalize := false, attack := 0
                    decay := 0, release := 0, sustain := 0, hold := 1 }
         width := { font := 0, pad := 4, minWidth := 0, separators := false, percent := false
                    seconds := false } }
     ∀ k, t.style k = builtIn ∧ t.pendingStyle k = builtIn) ∧
    t.clock = { time := { hours := 0, minutes := 0, seconds := 0 }, acc := 0 } ∧
    t.conf.rate = none ∧ t.conf.decode = none ∧
    (∀ i, t.schedEntry i =
      { armed := false, time := { hours := 0, minutes := 0, seconds := 0 }, daily := false
        action := .lane .start, mask := 0, arg := 0 }) ∧
    (∀ n : Fin 4, t.cue.inputs.get n =
      { filter := false, edge := .rise, action := .none, mask := 0, last := false, run := 0
        accepted := false
        capture := { valid := false, overwritten := false, lane := 0, item := none, tag := none
                     count := 0 } }) ∧
    t.cue.lineReg = none ∧ t.cue.out0 = false ∧ t.cue.out1 = false ∧ t.cue.latch = false ∧
    t.parity = false ∧
    (∀ n, t.slot n =
      { inFlight := false, lo := List.replicate 16 0, hi := List.replicate 16 0 }) ∧
    t.intake.queue = [] ∧ t.intake.reload = none ∧ t.intake.overrun = 0 ∧ t.intake.lastTag = 0 ∧
    t.port = { held := none, waiting := [] } ∧ t.own.writeBack = [] ∧ t.own.headWritten = false ∧
    t.own.reports = [] ∧
    t.rep = { events := 0, mask := 0, count := 0, taken := false }

/-- Every law holds of the machine right after reset. -/
def Obligations.SoundAtReset : Prop := State.reset.Sound

/-- R149, R157: a completion takes the command from the queue, frees its slot, hands its result word over
and sets CMD_ERROR where the result is not OK. Nothing else changes. R148: a code that names none of the
25 commands is answered BAD_COMMAND, with no effect. -/
def Obligations.CompletionAndBadCommand : Prop :=
  (∀ (s : State) (e : IntakeEntry) (rest : List IntakeEntry) (r : ResultCode),
     s.intake.queue = e :: rest → Store.wf CommandSlot.initial s.intake.slots = true →
     ∃ t : State, s.complete e r = t ∧
       t.intake.queue = rest ∧
       t.slot e.slot = { s.slot e.slot with inFlight := false } ∧
       (∀ n, n ≠ e.slot → t.slot n = s.slot n) ∧
       t.own.writeBack = s.own.writeBack ++
         [{ slot := e.slot, code := e.command.close.extractLsb' 0 8, result := r,
            tag := e.command.close.extractLsb' 16 16 }] ∧
       (∀ b : Fin 19, t.rep.events.getLsbD b.val =
         (s.rep.events.getLsbD b.val || (b.val == 0 && r != .ok))) ∧
       t = { s with
             intake := { s.intake with queue := rest, slots := t.intake.slots }
             own := { s.own with writeBack := t.own.writeBack }
             rep := { s.rep with events := t.rep.events } }) ∧
  ∀ (s : State) (e : IntakeEntry) (code : Nat), s.Executes e code →
    code ∉ [0x10, 0x11, 0x12, 0x13, 0x14, 0x15, 0x16, 0x17, 0x20, 0x21, 0x22, 0x30, 0x31, 0x32, 0x40,
      0x41, 0x50, 0x51, 0x52, 0x53, 0x54, 0x60, 0x61, 0x70, 0x71] →
    exec .badCommand s = .next (s.quiet.complete e .badCommand)

/-! ### Lanes -/

/-- R2: TAKE, START, STOP, HOLD and RESUME act on the lanes their mask names, one at a time in ascending
number, each by the state at that moment; the result is the refusal of the lowest-numbered lane that
refused. A mask that names no lane, or a mode of STOP outside its set, refuses the whole command. -/
def Obligations.MaskCommands : Prop :=
  (∀ (s : State) (e : IntakeEntry) (i : Instr) (a : LaneAction),
    ((i = .take ∧ a = .take ∧ s.Executes e 0x12) ∨ (i = .start ∧ a = .start ∧ s.Executes e 0x13) ∨
     (i = .stop ∧ a = .stopDrain ∧ s.Executes e 0x14 ∧ bits e.command.w0 0 8 = 0) ∨
     (i = .stop ∧ a = .stopFade ∧ s.Executes e 0x14 ∧ bits e.command.w0 0 8 = 1) ∨
     (i = .hold ∧ a = .hold ∧ s.Executes e 0x15) ∨
     (i = .resume ∧ a = .resume ∧ s.Executes e 0x16)) →
    let act := fun (x : State) (n : Fin 4) =>
      if e.command.close.getLsbD (8 + n.val) then x.actOnLane a n else (x, none)
    let r0 := act s.quiet 0
    let r1 := act r0.1 1
    let r2 := act r1.1 2
    let r3 := act r2.1 3
    exec i s = .next (
      if bits e.command.close 8 4 = 0 then s.quiet.complete e .badArg
      else r3.1.complete e ((r0.2.or (r1.2.or (r2.2.or r3.2))).getD .ok))) ∧
  ∀ (s : State) (e : IntakeEntry), s.Executes e 0x14 → 2 ≤ bits e.command.w0 0 8 →
    exec .stop s = .next (s.quiet.complete e .badArg)

/-- R6, R7, R10, R11, R12, R17: what START, STOP, HOLD, RESUME and TAKE do to one lane, by its state: the
state after, and the refusal where there is one. -/
def Obligations.LaneActionTables : Prop :=
  ∀ (s : State) (n : Fin 4),
    let l := s.lane n
    let rest : Lane :=
      { l with state := .off, placed := [], offset := 0, fade := 0, passCount := 0, dwellCount := 0,
               resume := .running, motionOn := true, pendForm := none, pendMotion := none,
               takeMark := false }
    let bad : State × Option ResultCode := (s, some .badState)
    s.actOnLane .start n =
      (if s.cue.latch = true then (s, some .killed)
      else match l.state with
        | .off =>
          if l.form.height = 0 then bad
          else if ∃ m : Fin 4, m ≠ n ∧ ∃ g ∈ (s.lane m).claims, ¬ l.form.apart g then (s, some .overlap)
          else (s.setLane n { l with state := .armed }, none)
        | .armed | .running => (s, none)
        | .draining => (s.setLane n { l with state := .running }, none)
        | .fadingOut => (s.setLane n { l with state := .running, motionOn := true }, none)
        | .held | .killed => bad) ∧
    s.actOnLane .stopDrain n =
      (match l.state with
        | .off => (s, none)
        | .armed => (s.setLane n rest, none)
        | .running => (s.setLane n { l with state := .draining }, none)
        | .held => (s.setLane n { l with resume := .draining }, none)
        | .draining | .fadingOut | .killed => bad) ∧
    s.actOnLane .stopFade n =
      (match l.state with
        | .off => (s, none)
        | .armed => (s.setLane n rest, none)
        | .running | .draining => (s.setLane n { l with state := .fadingOut, motionOn := true }, none)
        | .held => (s.setLane n { l with state := .fadingOut, motionOn := false }, none)
        | .fadingOut | .killed => bad) ∧
    s.actOnLane .hold n =
      (match l.state with
        | .running => (s.setLane n { l with state := .held, resume := .running }, none)
        | .draining => (s.setLane n { l with state := .held, resume := .draining }, none)
        | .off | .armed | .held | .fadingOut | .killed => bad) ∧
    s.actOnLane .resume n =
      (match l.state, l.resume with
        | .held, .running => (s.setLane n { l with state := .running }, none)
        | .held, .draining => (s.setLane n { l with state := .draining }, none)
        | .off, _ | .armed, _ | .running, _ | .draining, _ | .fadingOut, _ | .killed, _ => bad) ∧
    s.actOnLane .take n =
      (if l.state = .off then (s, none) else (s.setLane n { l with takeMark := true }, none))

/-- R3, R4, R5, R6, R172: LANE_FORM and LANE_MOTION. -/
def Obligations.LaneParameterCommands : Prop :=
  ((∀ (s : State) (e : IntakeEntry) (n : Fin 4) (d : DecodeConfig),
     s.Executes e 0x10 → bits e.command.close 8 8 = n.val → s.conf.decode = some d →
     let c := e.command
     let l := s.lane n
     let kind := bits c.w0 0 8
     let style := bits c.w0 8 8
     let top := bits c.w1 0 16
     let height := bits c.w1 16 16
     let left := bits c.w2 0 16
     let right := bits c.w2 16 16
     let f : Form :=
       { kind := if kind = 0 then .crawl else .flip, top := top, height := height, left := left
         right := if right < left + 63 then left + 63 else if d.width - 1 < right then d.width - 1
                  else right
         style := style }
     exec .laneForm s = .next (
       if 1 < kind ∨ d.lines ≤ top ∨ height < 8 ∨ 96 < height ∨ d.width < left + 64 ∨ 31 < style then
         s.quiet.complete e .badArg
       else if l.state ≠ .off ∧ f.kind ≠ l.form.kind then s.quiet.complete e .badState
       else if ∃ m : Fin 4, m ≠ n ∧ ∃ g ∈ (s.lane m).claims, ¬ f.apart g then
         s.quiet.complete e .overlap
       else if l.state = .off then
         (s.quiet.setLane n
           { l with
             form := f
             motion := { l.motion with cueColumn := min l.motion.cueColumn (f.right - f.left) }
             pendForm := none }).complete e .ok
       else (s.quiet.setLane n { l with pendForm := some f }).complete e .ok)) ∧
   ∀ (s : State) (e : IntakeEntry), s.Executes e 0x10 → 4 ≤ bits e.command.close 8 8 →
     exec .laneForm s = .next (s.quiet.complete e .badArg)) ∧
  (∀ (s : State) (e : IntakeEntry) (n : Fin 4),
    s.Executes e 0x11 → bits e.command.close 8 8 = n.val →
    let c := e.command
    let l := s.lane n
    let cap := fun (v hi : Nat) => if hi < v then hi else v
    let m : Motion :=
      { speed := cap (bits c.w0 0 16) 8191, gap := cap (bits c.w0 16 16) 1023
        dwell := if bits c.w1 0 16 = 0 then 1 else bits c.w1 0 16
        fade := bits c.w1 16 8, passLimit := bits c.w1 24 8, cueColumn := bits c.w2 0 16 }
    exec .laneMotion s = .next (
      (s.quiet.setLane n (
        if l.state = .off then
          { l with
            motion := { m with cueColumn := cap m.cueColumn (l.form.right - l.form.left) }
            pendMotion := none }
        else { l with pendMotion := some m })).complete e .ok)) ∧
  ∀ (s : State) (e : IntakeEntry), s.Executes e 0x11 → 4 ≤ bits e.command.close 8 8 →
    exec .laneMotion s = .next (s.quiet.complete e .badArg)

/-! ### Rings and items -/

/-- R23, R24: ENQUEUE, its checks in their order; DEQUEUE removes an unplaced entry, and gives a placed
one its no-repeat mark. -/
def Obligations.RingCommands : Prop :=
  (∀ (s : State) (e : IntakeEntry) (n : Fin 4),
    s.Executes e 0x20 → bits e.command.close 8 8 = n.val →
    let l := s.lane n
    let i := bits e.command.w0 0 16
    let pos := bits e.command.w0 16 8
    exec .enqueue s = .next (
      if 1 < pos ∨ 511 < i ∨ (s.item i).defined = false then s.quiet.complete e .badArg
      else if ∃ m : Fin 4, i ∈ (s.lane m).ring then s.quiet.complete e .inUse
      else if 96 ≤ l.ring.length then s.quiet.complete e .full
      else if pos = 0 then (s.quiet.setLane n { l with ring := l.ring ++ [i] }).complete e .ok
      else
        (s.quiet.setLane n
          { l with ring := l.ring.take l.placed.length ++ [i] ++ l.ring.drop l.placed.length }).complete
          e .ok)) ∧
  (∀ (s : State) (e : IntakeEntry), s.Executes e 0x20 → 4 ≤ bits e.command.close 8 8 →
    exec .enqueue s = .next (s.quiet.complete e .badArg)) ∧
  (∀ (s : State) (e : IntakeEntry) (n : Fin 4),
    s.Executes e 0x21 → bits e.command.close 8 8 = n.val →
    let l := s.lane n
    let i := bits e.command.w0 0 16
    exec .dequeue s = .next (
      if 511 < i then s.quiet.complete e .badArg
      else if i ∉ l.ring then s.quiet.complete e .notFound
      else if i ∈ l.ring.take l.placed.length then
        (s.quiet.setLane n
          { l with placed := l.placed.modify (l.ring.idxOf i) fun p =>
              { p with noRepeat := true } }).complete e .ok
      else (s.quiet.setLane n { l with ring := l.ring.erase i }).complete e .ok)) ∧
  ∀ (s : State) (e : IntakeEntry), s.Executes e 0x21 → 4 ≤ bits e.command.close 8 8 →
    exec .dequeue s = .next (s.quiet.complete e .badArg)

/-- R26: CLEAR. -/
def Obligations.ClearCommand : Prop :=
  (∀ (s : State) (e : IntakeEntry) (n : Fin 4),
    s.Executes e 0x22 → bits e.command.close 8 8 = n.val →
    exec .clear s = .next (
      if (s.lane n).state = .off then
        (s.quiet.setLane n { s.lane n with ring := [] }).complete e .ok
      else s.quiet.complete e .badState)) ∧
  ∀ (s : State) (e : IntakeEntry), s.Executes e 0x22 → 4 ≤ bits e.command.close 8 8 →
    exec .clear s = .next (s.quiet.complete e .badArg)

/-- R110, R115, R116, R172: ITEM_DEFINE, its checks in their order; TEXT_SEGMENT, where a segment is in
use when the reading of a placed TEXT item reaches it. -/
def Obligations.ItemAndTextCommands : Prop :=
  (∀ (s : State) (e : IntakeEntry), s.Executes e 0x30 →
     let c := e.command
     let i := bits c.w0 0 16
     let kind := bits c.w0 16 8
     let cue := bits c.w0 24 8
     let src := bits c.w1 0 16
     let ov := bits c.w1 16 8
     exec .itemDefine s = .next (
       if 511 < i ∨ 2 < kind ∨ (31 < ov ∧ ov ≠ 255) ∨ 6 < cue ∨ (kind = 0 ∧ 4095 < src) ∨
           (kind = 1 ∧ 2047 < src) then
         s.quiet.complete e .badArg
       else if ∃ m : Fin 4, ∃ x ∈ (s.lane m).entries, x.1 = i then s.quiet.complete e .inUse
       else
         (s.quiet.setItem i
           { defined := true
             source := if kind = 0 then .text src else if kind = 1 then .quote src else .clock
             override := if ov = 255 then none else some ov
             repeats := c.w1.getLsbD 24, marker := c.w1.getLsbD 25
             cueOut := [CueOut.none, .set0, .clear0, .toggle0, .set1, .clear1, .toggle1].getD cue .none
             tag := c.w2.extractLsb' 0 16 }).complete e .ok)) ∧
  ∀ (s : State) (e : IntakeEntry), s.Executes e 0x32 →
    let c := e.command
    let k := bits c.w0 0 16
    let half := bits c.w0 16 8
    let count := bits c.w0 24 8
    let nx := bits c.w1 0 16
    let old := (s.segment k).codes
    let codes := wordBytes c.w2 ++ wordBytes c.w3 ++ wordBytes c.w4
    let bad := 4095 < k ∨ 1 < half ∨ (4095 < nx ∧ nx ≠ 65535)
    let used := ∃ (m : Fin 4) (x : Nat × Placement) (head : Nat), x ∈ (s.lane m).entries ∧
      (s.item x.1).source = .text head ∧ k ∈ s.textSegments head
    (bad → exec .textSegment s = .next (s.quiet.complete e .badArg)) ∧
    (¬ bad → used → exec .textSegment s = .next (s.quiet.complete e .inUse)) ∧
    (¬ bad → ¬ used →
      exec .textSegment s = .next (
        State.complete
          { s.quiet with
            segments := Store.put Segment.empty s.segments k
              { count := if 24 < count then 24 else count
                next := if nx = 65535 then none else some nx
                codes := if half = 0 then codes ++ old.drop 12 else old.take 12 ++ codes } } e .ok))

/-- R111: ITEM_DROP. -/
def Obligations.ItemDropCommand : Prop :=
  ∀ (s : State) (e : IntakeEntry), s.Executes e 0x31 →
    let i := bits e.command.w0 0 16
    exec .itemDrop s = .next (
      if 511 < i then s.quiet.complete e .badArg
      else if ∃ m : Fin 4, i ∈ (s.lane m).ring then s.quiet.complete e .inUse
      else if (s.item i).defined = true then
        (s.quiet.setItem i
          { defined := false, source := .text 0, override := none, repeats := false, marker := false
            cueOut := .none, tag := 0 }).complete e .ok
      else s.quiet.complete e .ok)

/-- R120, R121, R122: STYLE_COLORS and STYLE_FORM write a style's pending copy. The transfer makes every
style's appearance fields current, and its width fields where the style is not in use. -/
def Obligations.StyleTableCommands : Prop :=
  ((∀ (s : State) (e : IntakeEntry), s.Executes e 0x40 →
     let c := e.command
     let k := bits c.close 8 8
     exec .styleColors s = .next (
       if 31 < k then s.quiet.complete e .badArg
       else
         (s.quiet.setPendingStyle k
           { s.pendingStyle k with
             colors :=
               { fill := colorOfWord c.w0, text := colorOfWord c.w1, up := colorOfWord c.w2
                 down := colorOfWord c.w3, flat := colorOfWord c.w4, halt := colorOfWord c.w5 } }).complete
           e .ok)) ∧
   ∀ (s : State) (e : IntakeEntry), s.Executes e 0x41 →
     let c := e.command
     let k := bits c.close 8 8
     let w : WidthFields :=
       { font := bits c.w2 16 8, pad := bits c.w2 24 8, minWidth := bits c.w3 0 16
         separators := c.w3.getLsbD 16, percent := c.w3.getLsbD 17, seconds := c.w3.getLsbD 18 }
     let fl : FlashFields :=
       { flashUp := colorOfWord c.w0, flashDown := colorOfWord c.w1, alpha := bits c.w2 0 16
         legalize := c.w3.getLsbD 19, attack := bits c.w4 0 8, decay := bits c.w4 8 8
         release := bits c.w4 16 8, sustain := bits c.w4 24 8
         hold := if bits c.w5 0 8 = 0 then 1 else bits c.w5 0 8 }
     exec .styleForm s = .next (
       if 31 < k ∨ 256 < fl.alpha ∨ 3 < w.font ∨ 63 < w.pad ∨ 1023 < w.minWidth ∨ 15 < fl.attack ∨
           15 < fl.decay ∨ 15 < fl.release ∨ 15 < fl.sustain then
         s.quiet.complete e .badArg
       else if (∃ m : Fin 4, (∃ p ∈ (s.lane m).placed, p.style = k) ∨
             ((s.lane m).form.style = k ∧ (s.lane m).placed ≠ [])) ∧ w ≠ (s.style k).width then
         s.quiet.complete e .inUse
       else
         (s.quiet.setPendingStyle k { s.pendingStyle k with flash := fl, width := w }).complete e .ok)) ∧
  ∀ s : State, Store.wf Style.builtIn s.styles.cur = true →
    let used := fun k : Nat => ∃ m : Fin 4, (∃ p ∈ (s.lane m).placed, p.style = k) ∨
      ((s.lane m).form.style = k ∧ (s.lane m).placed ≠ [])
    ∃ t : State, s.transferStyles = t ∧
      t = { s with styles := { s.styles with cur := t.styles.cur } } ∧
      ∀ k, k < 32 →
        (t.style k).colors = (s.pendingStyle k).colors ∧
        (t.style k).flash = (s.pendingStyle k).flash ∧
        (used k → (t.style k).width = (s.style k).width) ∧
        (¬ used k → (t.style k).width = (s.pendingStyle k).width)

/-! ### Clock, schedule, cue lines and events -/

/-- R125, R127, R172: CLOCK_SET, SCHEDULE_SET and SCHEDULE_CLEAR. -/
def Obligations.ClockAndScheduleCommands : Prop :=
  (∀ (s : State) (e : IntakeEntry), s.Executes e 0x50 →
    let c := e.command
    let digits := fun b : Nat => b / 16 ≤ 9 ∧ b % 16 ≤ 9
    let value := fun b : Nat => 10 * (b / 16) + b % 16
    let sec := bits c.w0 0 8
    let min := bits c.w0 8 8
    let hour := bits c.w0 16 8
    exec .clockSet s = .next (
      if digits sec ∧ digits min ∧ digits hour ∧ value sec ≤ 59 ∧ value min ≤ 59 ∧ value hour ≤ 23 then
        State.complete
          { s.quiet with
            clock :=
              { time := { hours := BitVec.ofNat 8 hour, minutes := BitVec.ofNat 8 min
                          seconds := BitVec.ofNat 8 sec }
                acc := 0 } } e .ok
      else s.quiet.complete e .badArg)) ∧
  (∀ (s : State) (e : IntakeEntry), s.Executes e 0x51 →
    let c := e.command
    let i := bits c.close 8 8
    let mode := bits c.w1 0 8
    let action := bits c.w1 8 8
    let arg := bits c.w1 24 8
    exec .scheduleSet s = .next (
      if 15 < i ∨ (timeOfWord c.w0).valid = false ∨ 1 < mode ∨ 6 < action ∨ bits c.w1 16 4 = 0 ∨
          (action = 6 ∧ 31 < arg) then
        s.quiet.complete e .badArg
      else
        (s.quiet.setSchedEntry i
          { armed := true, time := timeOfWord c.w0, daily := mode == 1
            action := [SchedAction.lane .start, .lane .stopDrain, .lane .stopFade, .lane .hold,
              .lane .resume, .lane .take, .setStyle].getD action .setStyle
            mask := c.w1.extractLsb' 16 4, arg := arg }).complete e .ok)) ∧
  ∀ (s : State) (e : IntakeEntry), s.Executes e 0x52 →
    ∃ q : Store SchedEntry,
      exec .scheduleClear s = .next (State.complete { s.quiet with schedule := q } e .ok) ∧
      ∀ i, Store.get SchedEntry.initial q i =
        if i < 16 ∧ e.command.w0.getLsbD i = true then
          { armed := false, time := { hours := 0, minutes := 0, seconds := 0 }, daily := false
            action := .lane .start, mask := 0, arg := 0 }
        else s.schedEntry i

/-- R135, R172: CUE_SET. -/
def Obligations.CueSetCommand : Prop :=
  (∀ (s : State) (e : IntakeEntry) (n : Fin 4),
    s.Executes e 0x53 → bits e.command.close 8 8 = n.val →
    let w := e.command.w0
    let filter := bits w 0 8
    let edge := bits w 8 8
    let action := bits w 16 8
    exec .cueSet s = .next (
      if 1 < filter ∨ 2 < edge ∨ 7 < action ∨ (bits w 24 4 = 0 ∧ action ≠ 0) then
        s.quiet.complete e .badArg
      else
        (s.quiet.setInput n
          { s.cue.inputs.get n with
            filter := filter == 1, edge := [Edge.rise, .fall, .both].getD edge .rise
            action := [CueAction.none, .capture, .lane .start, .lane .stopDrain, .lane .stopFade,
              .lane .hold, .lane .resume, .lane .take].getD action .none
            mask := w.extractLsb' 24 4 }).complete e .ok)) ∧
  ∀ (s : State) (e : IntakeEntry), s.Executes e 0x53 → 4 ≤ bits e.command.close 8 8 →
    exec .cueSet s = .next (s.quiet.complete e .badArg)

/-- R136, R139: CUEOUT_LEVEL. RESTORE clears the latch and moves the KILLED lanes that its mask names to
the target, with fade level 0; it is refused while KILL_N is low. -/
def Obligations.CueoutAndRestoreCommands : Prop :=
  (∀ (s : State) (e : IntakeEntry), s.Executes e 0x54 →
     let a := bits e.command.w0 0 8
     let b := bits e.command.w0 8 8
     let drive := fun (op : Nat) (level : Bool) =>
       if op = 0 then level else if op = 1 then false else if op = 2 then true else !level
     exec .cueoutLevel s = .next (
       if 3 < a ∨ 3 < b then s.quiet.complete e .badArg
       else if s.cue.latch = true then s.quiet.complete e .killed
       else
         State.complete
           { s.quiet with cue := { s.cue with out0 := drive a s.cue.out0, out1 := drive b s.cue.out1 } }
           e .ok)) ∧
  ∀ (s : State) (e : IntakeEntry), s.Executes e 0x17 →
    let target := bits e.command.w0 0 8
    let back := fun (n : Nat) (l : Lane) =>
      if e.command.close.getLsbD (8 + n) = true ∧ l.state = .killed then
        if target = 1 then { l with state := .running, fade := 0, motionOn := true }
        else { l with state := .held, resume := .running, fade := 0, motionOn := true }
      else l
    exec .restore s = .next (
      if bits e.command.close 8 4 = 0 ∨ 1 < target then s.quiet.complete e .badArg
      else if s.pins.killN = false then s.quiet.complete e .lineActive
      else
        State.complete
          { s.quiet with
            cue := { s.cue with latch := false }
            lanes := ⟨back 0 s.lanes.e0, back 1 s.lanes.e1, back 2 s.lanes.e2, back 3 s.lanes.e3⟩ }
          e .ok)

/-- R159: EVENT_MASK. Each selected mask bit takes the fill, the others and the event bits keep their
values; ATTN follows. Another fill is refused. -/
def Obligations.EventMaskCommand : Prop :=
  ∀ (s : State) (e : IntakeEntry), s.Executes e 0x60 →
    let c := e.command
    (2 ≤ c.w1.toNat → exec .eventMask s = .next (s.quiet.complete e .badArg)) ∧
    (c.w1.toNat < 2 → ∃ (m : BitVec 19) (t : State),
      exec .eventMask s = .next t ∧
      t = State.complete { s.quiet with rep := { s.rep with mask := m } } e .ok ∧
      (∀ b : Fin 19, m.getLsbD b.val =
        if c.w0.getLsbD b.val then decide (c.w1.toNat = 1) else s.rep.mask.getLsbD b.val) ∧
      t.rep.events = s.rep.events ∧
      (t.attn = true ↔ ∃ b : Fin 19, t.rep.events.getLsbD b.val = true ∧ m.getLsbD b.val = true))

/-- R160, R134: EVENT_ACK clears the selected event bits, and the flags of the capture records whose
events it selects. -/
def Obligations.EventAckCommand : Prop :=
  ∀ (s : State) (e : IntakeEntry), s.Executes e 0x61 →
    let c := e.command
    let done := fun (n : Nat) (i : CueInput) =>
      if c.w0.getLsbD (11 + n) then
        { i with capture := { i.capture with valid := false, overwritten := false } }
      else i
    ∃ v : BitVec 19,
      (∀ b : Fin 19, v.getLsbD b.val = (s.rep.events.getLsbD b.val && !c.w0.getLsbD b.val)) ∧
      exec .eventAck s = .next (
        State.complete
          { s.quiet with
            rep := { s.rep with events := v }
            cue := { s.cue with inputs :=
              ⟨done 0 s.cue.inputs.e0, done 1 s.cue.inputs.e1, done 2 s.cue.inputs.e2,
               done 3 s.cue.inputs.e3⟩ } } e .ok)

/-! ### REINIT, RELOAD and commands that are none -/

/-- R170: REINIT clears the part's programming and keeps what belongs to the station and the hardware. -/
def Obligations.ReinitCommand : Prop :=
  ∀ (s : State) (e : IntakeEntry), s.Executes e 0x70 →
    ∃ x : State, exec .reinit s = .next (x.complete e .ok) ∧ (x.complete e .ok).attn = false ∧
      (∀ n, x.lane n = Lane.initial) ∧ (∀ i, x.item i = Item.undefined) ∧
      (∀ i, x.segment i = Segment.empty) ∧ (∀ n, x.quote n = QuoteSlot.initial) ∧
      (∀ i, x.schedEntry i = SchedEntry.initial) ∧
      (∀ k, x.style k = Store.get Style.builtIn s.styles.deflt k ∧
        x.pendingStyle k = Store.get Style.builtIn s.styles.deflt k) ∧
      x.rep = { s.rep with events := 0, mask := 0 } ∧
      x.intake = { s.intake with overrun := 0, lastTag := 0 } ∧
      (∀ n : Fin 4, x.cue.inputs.get n =
        { filter := false, edge := .rise, action := .none, mask := 0, capture := Capture.initial
          last := (s.cue.inputs.get n).last, run := (s.cue.inputs.get n).run
          accepted := (s.cue.inputs.get n).accepted }) ∧
      x = { s.quiet with
            lanes := x.lanes, items := x.items, segments := x.segments, quotes := x.quotes
            schedule := x.schedule, styles := { x.styles with deflt := s.styles.deflt }
            rep := x.rep, intake := x.intake, cue := { s.cue with inputs := x.cue.inputs } }

/-- R148, R150, R165, R170, R171: RELOAD. It is refused while a lane is outside OFF in ACTIVE. Accepted
alone in the queue, it clears the programming, frees every other slot, releases a write held for the
write-back queue unmerged, with the transactions behind it, and enters LOADING, where the loader waits for
the bus. Accepted with others behind it, it stays at the head while they are answered. That it goes before
a write held for the write-back queue, where its event comes first, is the model's choice
(notes/assumptions/12.md). -/
def Obligations.ReloadCommand : Prop :=
  ∀ (s : State) (e : IntakeEntry) (rest : List IntakeEntry),
    s.intake.queue = e :: rest → e.command.code = 0x71 → s.pins.resetN = true → s.device ≠ .loading →
    s.intake.reload = none → s.own.writeBack.length < 16 → s.heldFirst = false →
    ((s.device = .active ∧ ∃ n : Fin 4, (s.lane n).state ≠ .off) →
      exec .reload s = .next (s.quiet.complete e .badState)) ∧
    (¬ (s.device = .active ∧ ∃ n : Fin 4, (s.lane n).state ≠ .off) → rest ≠ [] →
      exec .reload s =
        .next { s.quiet with intake := { s.intake with reload := some .aborting } }) ∧
    (¬ (s.device = .active ∧ ∃ n : Fin 4, (s.lane n).state ≠ .off) → rest = [] →
      ∃ t : State, exec .reload s = .next t ∧
        t.device = .loading ∧
        t.loader = { status := .loading, reason := none, bus := .waiting, staging := [] } ∧
        (∀ n, t.lane n = Lane.initial) ∧ (∀ i, t.item i = Item.undefined) ∧
        (∀ i, t.segment i = Segment.empty) ∧ (∀ n, t.quote n = QuoteSlot.initial) ∧
        (∀ i, t.schedEntry i = SchedEntry.initial) ∧
        (∀ k, t.style k = Store.get Style.builtIn s.styles.deflt k ∧
          t.pendingStyle k = Store.get Style.builtIn s.styles.deflt k) ∧
        (∀ n : Fin 4, t.cue.inputs.get n =
          { filter := false, edge := .rise, action := .none, mask := 0, capture := Capture.initial
            last := (s.cue.inputs.get n).last, run := (s.cue.inputs.get n).run
            accepted := (s.cue.inputs.get n).accepted }) ∧
        (∀ n, t.slot n =
          { inFlight := n == e.slot, lo := List.replicate 16 0, hi := List.replicate 16 0 }) ∧
        t.intake.queue = [e] ∧ t.intake.reload = some .loading ∧ t.intake.overrun = 0 ∧
        t.intake.lastTag = 0 ∧ t.rep = { s.rep with events := 0, mask := 0 } ∧ t.attn = false ∧
        t.clock = s.clock ∧ t.conf = s.conf ∧ t.fonts = s.fonts ∧ t.own = s.own ∧
        t.port = s.port.released ∧ t.cue.latch = s.cue.latch ∧ t.cue.out0 = s.cue.out0 ∧ t.cue.out1 = s.cue.out1 ∧
        t.cue.lineReg = s.cue.lineReg ∧ t.pins = s.pins ∧ t.parity = s.parity ∧
        t.pending = s.pending ∧ t.out = s.port.unmerged)

/-! ### The system port -/

/-- R45, R47 to R50, R153, 12.3: one beat on a quote slot, in ACTIVE with the port free. The enabled bytes
replace the assembly's; a beat that touches word 3 commits the assembly as the pending value; the beat
goes to memory as written and memory's response returns. The quote value that a commit decodes. -/
def Obligations.QuoteWrite : Prop :=
  (∀ (s : State) (size : BeatSize) (b : Beat) (k : Nat) (replies : List MemResp),
     s.OnAir → s.PortFree → k < 2048 →
     b.addr = s.conf.anchor.toNat + 0x8000 + 16 * k →
     let q := s.quote k
     let asm := (q.asm.take 16).zipIdx.map fun x =>
       if b.enables.getLsbD x.2 then b.data.extractLsb' (8 * x.2) 8 else x.1
     let commits := b.enables.getLsbD 12 || b.enables.getLsbD 13 || b.enables.getLsbD 14 ||
       b.enables.getLsbD 15
     exec (.systemWrite { size := size, beats := [b], replies := replies }) s = .next
       { s.setQuote k
           { q with asm := asm, pend := if commits then some (decodeQuote asm) else q.pend } with
         out := [.memWrite .system size [b], .sysWriteResp (replies.headD .okay)] }) ∧
  ∀ asm : List Byte, asm.length = 16 →
    let v := decodeQuote asm
    let word := fun i : Nat =>
      (asm.getD (i + 3) 0 ++ asm.getD (i + 2) 0 ++ asm.getD (i + 1) 0 ++ asm.getD i 0 : BitVec 32)
    let control := word 12
    v.price = (word 8).toInt ∧
    v.change = (control.extractLsb' 0 24).toInt ∧
    v.decimals = (if 4 < bits control 24 3 then 4 else bits control 24 3) ∧
    (bits control 27 2 = 0 → v.status = .normal) ∧ (bits control 27 2 = 1 → v.status = .halted) ∧
    (2 ≤ bits control 27 2 → v.status = .closed) ∧
    v.percent = control.getLsbD 29 ∧
    ∃ (k : Nat) (tail : List Byte), asm.take 8 = v.symbol ++ List.replicate k 0x20 ++ tail ∧
      (∀ c ∈ v.symbol, c ≠ 0) ∧ v.symbol.getLast? ≠ some 0x20 ∧
      (tail = [] ∨ tail.head? = some 0)

/-- R46, R51, R141, R153 to R155, R165: writes of the system port that close no command, and transactions
of several beats, with the port free. A beat of the command window is merged byte by byte out of LOADING,
word 6 excepted; a quote beat outside ACTIVE, a beat in the unwatched range or outside the aperture, and
every beat in LOADING change nothing; all of them go to memory as written, and memory's response returns.
A transaction of several beats does what its first beat and then the others do, its beats up to one that
is held going to memory as one part. -/
def Obligations.WritesPass : Prop :=
  ∀ (s : State) (size : BeatSize) (b : Beat) (replies : List MemResp),
    s.pins.resetN = true → s.PortFree →
    let sent := fun (x : State) (beats : List Beat) =>
      { x with out := [PortEvent.memWrite .system size beats, .sysWriteResp (replies.headD .okay)] }
    let write := fun (beats : List Beat) (x : State) =>
      exec (.systemWrite { size := size, beats := beats, replies := replies }) x
    let base := s.conf.anchor.toNat
    let merged := fun (old : List Byte) (word6 : Bool) =>
      (old.take 16).zipIdx.map fun x =>
        if b.enables.getLsbD x.2 = true ∧ (word6 = true ∨ ¬ (8 ≤ x.2 ∧ x.2 < 12)) then
          b.data.extractLsb' (8 * x.2) 8
        else x.1
    (∀ k, k < 64 → s.device ≠ .loading → b.addr = base + 32 * k →
      write [b] s = .next (sent (s.setSlot k { s.slot k with lo := merged (s.slot k).lo true }) [b])) ∧
    (∀ k, k < 64 → s.device ≠ .loading → b.addr = base + 32 * k + 16 →
      (∀ j, 12 ≤ j → j < 16 → b.enables.getLsbD j = false) →
      write [b] s = .next (sent (s.setSlot k { s.slot k with hi := merged (s.slot k).hi false }) [b])) ∧
    (∀ k, k < 2048 → s.device ≠ .active → b.addr = base + 0x8000 + 16 * k →
      write [b] s = .next (sent s [b])) ∧
    (b.addr < base ∨ base + 0x10000 ≤ b.addr ∨ (base + 0x800 ≤ b.addr ∧ b.addr < base + 0x8000) →
      write [b] s = .next (sent s [b])) ∧
    ∀ bs : List Beat, (s.device = .loading → write (b :: bs) s = .next (sent s (b :: bs))) ∧
      (bs ≠ [] → ∀ s1 : State, write [b] s = .next s1 →
        (∀ h : Held, s1.port.held = some h → write (b :: bs) s =
          .next { s1 with port := { held := some { h with beats := b :: bs }, waiting := [] } }) ∧
        (s1.port.held = none → ∀ s2 : State, write bs s1 = .next s2 →
          (s2.port.held = none → write (b :: bs) s = .next (sent s2 (b :: bs))) ∧
          ∀ h : Held, s2.port.held = some h → ∃ ahead : List Beat, bs = ahead ++ h.beats ∧
            write (b :: bs) s = .next
              { s2 with
                out := [.memWrite .system size (b :: ahead)]
                port :=
                  { held := some { h with priorErr := decide (replies.headD .okay = .error)
                                          replies := replies.tail }
                    waiting := [] } }))

/-- R141 to R147: a closing write of one beat, with the port free, out of LOADING: NOT_READY, a full queue
(held or discarded by the flow mode), SLOT_BUSY, or an entry of the intake queue. An answer that finds
the write-back queue full goes by the flow mode. A held beat is neither merged nor passed to memory. The
command is words 0 to 5 and 7 of the merged assembly, its code bits 7..0 of the close word (12.2). -/
def Obligations.ClosingWrite : Prop :=
  ∀ (s : State) (size : BeatSize) (b : Beat) (k : Nat) (replies : List MemResp),
    s.pins.resetN = true → s.device ≠ .loading → s.PortFree →
    Store.wf CommandSlot.initial s.intake.slots = true → k < 64 →
    b.addr = s.conf.anchor.toNat + 32 * k + 16 →
    (b.enables.getLsbD 12 = true ∨ b.enables.getLsbD 13 = true ∨ b.enables.getLsbD 14 = true ∨
      b.enables.getLsbD 15 = true) →
    let old := s.slot k
    let hi := (old.hi.take 16).zipIdx.map fun x =>
      if b.enables.getLsbD x.2 = true ∧ ¬ (8 ≤ x.2 ∧ x.2 < 12) then b.data.extractLsb' (8 * x.2) 8
      else x.1
    let merged : CommandSlot := { old with hi := hi }
    let word := fun (bs : List Byte) (i : Nat) =>
      bs.getD (4 * i + 3) 0 ++ bs.getD (4 * i + 2) 0 ++ bs.getD (4 * i + 1) 0 ++ bs.getD (4 * i) 0
    let c : Command :=
      { w0 := word old.lo 0, w1 := word old.lo 1, w2 := word old.lo 2, w3 := word old.lo 3
        w4 := word hi 0, w5 := word hi 1, close := word hi 3 }
    let s1 := s.quiet.setSlot k merged
    let passed := fun x : State =>
      (x.emit (.memWrite .system size [b])).emit (.sysWriteResp (replies.headD .okay))
    let lost := passed (State.raise
      { s1 with intake := { s1.intake with overrun := min 65535 (s.intake.overrun + 1)
                                           lastTag := c.close.extractLsb' 16 16 } } .overrun)
    let full := fun need : HoldNeed =>
      if s.conf.flow = .pass then lost
      else
        { s.quiet with
          port := { held := some { size := size, beats := [b], need := need, priorErr := false
                                   replies := replies }
                    waiting := [] } }
    let answer := fun r : ResultCode =>
      if s.writeBackTaken < 16 then
        passed (s1.handOver { slot := k, code := c.close.extractLsb' 0 8, result := r
                              tag := c.close.extractLsb' 16 16 })
      else full .resultRoom
    exec (.systemWrite { size := size, beats := [b], replies := replies }) s = .next (
      if s.device = .unconfigured ∧ c.close.extractLsb' 0 8 ≠ 0x71 then answer .notReady
      else if 64 ≤ s.intake.queue.length then full .intakeRoom
      else if old.inFlight = true then answer .slotBusy
      else
        let s2 := s1.setSlot k { merged with inFlight := true }
        passed { s2 with intake := { s2.intake with
          queue := s.intake.queue ++ [{ slot := k, command := c }] } })

/-- R144, R145, R147, R153, R155: a held write. When an entry of the intake queue has left, its closing beat
is merged and passed, and appended or answered SLOT_BUSY by its slot, or stays held where that answer finds
the write-back queue full; when an entry of that queue has drained, the answer it is owed is handed over,
NOT_READY in UNCONFIGURED for a code other than RELOAD; when the stall limit expires first, its command is
discarded. The beats behind the held one are then taken as a write of their own would be, and carried to
memory with it as one part, up to a beat that is held again. The transactions that waited are taken after
it, in their order, as if presented then.
The model's readings: a write that waits for the write-back queue is owed its answer whatever its slot is
by then (notes/assumptions/23.md); a release without room changes nothing (notes/assumptions/2.md); the
responses of the transactions that waited return in their order (notes/assumptions/6.md). -/
def Obligations.HeldWriteEnds : Prop :=
  (∀ (s : State) (size : BeatSize) (b : Beat) (k : Nat) (need : HoldNeed) (priorErr : Bool)
     (replies : List MemResp), s.pins.resetN = true → s.device ≠ .loading →
     s.port = { held := some { size := size, beats := [b], need := need, priorErr := priorErr
                               replies := replies }
                waiting := [] } →
     Store.wf CommandSlot.initial s.intake.slots = true → k < 64 →
     b.addr = s.conf.anchor.toNat + 32 * k + 16 →
     (b.enables.getLsbD 12 = true ∨ b.enables.getLsbD 13 = true ∨ b.enables.getLsbD 14 = true ∨
       b.enables.getLsbD 15 = true) →
     let old := s.slot k
     let hi := (old.hi.take 16).zipIdx.map fun x =>
       if b.enables.getLsbD x.2 = true ∧ ¬ (8 ≤ x.2 ∧ x.2 < 12) then b.data.extractLsb' (8 * x.2) 8
       else x.1
     let merged : CommandSlot := { old with hi := hi }
     let word := fun (bs : List Byte) (i : Nat) =>
       bs.getD (4 * i + 3) 0 ++ bs.getD (4 * i + 2) 0 ++ bs.getD (4 * i + 1) 0 ++ bs.getD (4 * i) 0
     let c : Command :=
       { w0 := word old.lo 0, w1 := word old.lo 1, w2 := word old.lo 2, w3 := word old.lo 3
         w4 := word hi 0, w5 := word hi 1, close := word hi 3 }
     let s1 := s.quiet.dropHeld.setSlot k merged
     let passed := fun x : State =>
       (x.emit (.memWrite .system size [b])).emit
         (.sysWriteResp (if priorErr then .error else replies.headD .okay))
     let answered := fun r : ResultCode =>
       passed (s1.handOver { slot := k, code := c.close.extractLsb' 0 8, result := r
                             tag := c.close.extractLsb' 16 16 })
     let queued :=
       let s2 := s1.setSlot k { merged with inFlight := true }
       passed { s2 with intake := { s2.intake with
         queue := s.intake.queue ++ [{ slot := k, command := c }] } }
     let lost := passed (State.raise
       { s1 with intake := { s1.intake with overrun := min 65535 (s.intake.overrun + 1)
                                            lastTag := c.close.extractLsb' 16 16 } } .overrun)
     (need = .intakeRoom → s.intake.queue.length < 64 → s.writeBackTaken < 16 →
       exec .heldWriteRelease s = .next (if old.inFlight = true then answered .slotBusy else queued)) ∧
     (need = .intakeRoom → s.intake.queue.length < 64 → 16 ≤ s.writeBackTaken → s.conf.flow = .hold →
       exec .heldWriteRelease s = .next (
         if old.inFlight = true then
           { s.quiet with
             port := { held := some { size := size, beats := [b], need := .resultRoom
                                      priorErr := priorErr, replies := replies }
                       waiting := [] } }
         else queued)) ∧
     (need = .resultRoom → s.writeBackTaken < 16 → exec .heldWriteRelease s = .next (
       answered (if s.device = .unconfigured ∧ c.close.extractLsb' 0 8 ≠ 0x71 then .notReady
         else .slotBusy))) ∧
     (((need = .intakeRoom ∧ 64 ≤ s.intake.queue.length) ∨
         (need = .resultRoom ∧ 16 ≤ s.writeBackTaken)) →
       exec .heldWriteRelease s = .next s.quiet ∧ exec .stallLimitExpiry s = .next lost)) ∧
  ∀ (i : Instr) (s : State) (h : Held), i = .heldWriteRelease ∨ i = .stallLimitExpiry →
    s.pins.resetN = true → s.port.held = some h →
    (∀ (b : Beat) (bs : List Beat), h.beats = b :: bs → bs ≠ [] → s.port.waiting = [] →
      ∀ x : State,
        exec i { s with port := { held := some { h with beats := [b] }, waiting := [] } } = .next x →
        (∀ h' : Held, x.port.held = some h' →
          exec i s = .next { x with port := { held := some { h' with beats := b :: bs }, waiting := [] } }) ∧
        (x.port.held = none → ∀ y : State,
          exec (.systemWrite { size := h.size, beats := bs, replies := h.replies }) x = .next y →
          let failed := h.priorErr = true ∨ h.replies.headD .okay = .error
          (y.port.held = none → exec i s = .next
            { y with out := [.memWrite .system h.size (b :: bs),
                             .sysWriteResp (if failed then .error else .okay)] }) ∧
          ∀ h' : Held, y.port.held = some h' → ∃ ahead : List Beat, bs = ahead ++ h'.beats ∧
            exec i s = .next
              { y with
                out := [.memWrite .system h.size (b :: ahead)]
                port := { held := some { h' with priorErr := decide failed, replies := h.replies.tail }
                          waiting := [] } })) ∧
    ∀ (u : SysTxn) (x y : State), exec i s = .next x →
      exec (match u with
        | .write w => .systemWrite w
        | .read r => .systemRead r) x = .next y →
      exec i { s with port := { s.port with waiting := s.port.waiting ++ [u] } } =
        .next { y with out := x.out ++ y.out }

/-- R150, R156, R170, R171: the ABORTED answers of an accepted RELOAD, one at a time as the write-back
queue has room. After the last the part enters LOADING: the clearing of REINIT is made, every other slot is
FREE and every assembly zero, the RELOAD's own entry stays, the loader waits for the bus, a write still
held is released unmerged with the transactions behind it, and what belongs to the station and the hardware
is kept. That the answers do not wait for a held write is the model's choice (notes/assumptions/12.md). -/
def Obligations.AbortAnswers : Prop :=
  ∀ (s : State) (r e : IntakeEntry) (rest : List IntakeEntry),
    s.pins.resetN = true → s.intake.reload = some .aborting → s.intake.queue = r :: e :: rest →
    s.writeBackTaken < 16 →
    let s1 := State.handOver
      { s.quiet with intake := { s.intake with
          queue := r :: rest
          slots := Store.put CommandSlot.initial s.intake.slots e.slot
            { s.slot e.slot with inFlight := false } } }
      { slot := e.slot, code := e.command.close.extractLsb' 0 8, result := .aborted
        tag := e.command.close.extractLsb' 16 16 }
    (rest ≠ [] → exec .abortAnswer s = .next s1) ∧
    (rest = [] → ∃ t : State, exec .abortAnswer s = .next t ∧ t.device = .loading ∧
      t.loader = { status := .loading, reason := none, bus := .waiting, staging := [] } ∧
      t.intake.queue = [r] ∧ t.intake.reload = some .loading ∧ t.intake.overrun = 0 ∧
      t.intake.lastTag = 0 ∧
      (∀ n, t.slot n =
        { inFlight := n == r.slot, lo := List.replicate 16 0, hi := List.replicate 16 0 }) ∧
      t.own = s1.own ∧ t.rep = { s.rep with events := 0, mask := 0 } ∧ t.attn = false ∧
      (∀ n, t.lane n = Lane.initial) ∧ (∀ i, t.item i = Item.undefined) ∧
      (∀ i, t.segment i = Segment.empty) ∧ (∀ n, t.quote n = QuoteSlot.initial) ∧
      (∀ i, t.schedEntry i = SchedEntry.initial) ∧
      (∀ k, t.style k = Store.get Style.builtIn s.styles.deflt k ∧
        t.pendingStyle k = Store.get Style.builtIn s.styles.deflt k) ∧
      (∀ n : Fin 4, t.cue.inputs.get n =
        { filter := false, edge := .rise, action := .none, mask := 0, capture := Capture.initial
          last := (s.cue.inputs.get n).last, run := (s.cue.inputs.get n).run
          accepted := (s.cue.inputs.get n).accepted }) ∧
      t = { s with
            out := s.port.unmerged, port := s.port.released
            device := .loading, loader := t.loader, intake := t.intake
            own := t.own, rep := t.rep, lanes := t.lanes, items := t.items, segments := t.segments
            quotes := t.quotes, schedule := t.schedule
            styles := { t.styles with deflt := s.styles.deflt }
            cue := { s.cue with inputs := t.cue.inputs } })

/-- R93, R153: a read of the system port, and a scan read that begins outside both frame buffer windows,
are passed to memory and change no other state. While a write is held, a read or write that is presented
waits behind those that wait already, and nothing of it is taken (R144). -/
def Obligations.ReadsPass : Prop :=
  (∀ (s : State) (r : ReadTxn), s.pins.resetN = true → s.PortFree →
    exec (.systemRead r) s = .next
      { s with out := [.memRead .system r.addr r.len r.size, .sysReadResp r.data r.reply] }) ∧
  (∀ (s : State) (r : ReadTxn), s.pins.resetN = true → s.port.held ≠ none →
    exec (.systemRead r) s = .next
      { s with out := [], port := { s.port with waiting := s.port.waiting ++ [.read r] } }) ∧
  (∀ (s : State) (w : WriteTxn), s.pins.resetN = true → s.port.held ≠ none →
    exec (.systemWrite w) s = .next
      { s with out := [], port := { s.port with waiting := s.port.waiting ++ [.write w] } }) ∧
  ∀ (s : State) (addr : Word) (burst : Burst) (levels : Four Bool) (order : List ReadTok),
    s.pins.resetN = true →
    (s.device = .active → ∀ d ∈ s.conf.decode,
      (addr.toNat < d.base0.toNat ∨ d.base0.toNat + d.lines * d.pitch ≤ addr.toNat) ∧
      (addr.toNat < d.base1.toNat ∨ d.base1.toNat + d.lines * d.pitch ≤ addr.toNat)) →
    exec (.scanRead addr burst levels order) s = .next
      { s with
        out := [.memRead .scan addr burst.len burst.size], pins := { s.pins with cueIn := levels } }

/-! ### The part's own writes -/

/-- R149, R155, R156, R162, 12.2: the head result is written to word 6 of its slot, with that word's
enables alone, when neither a scan read nor a system-port transaction waits; it leaves the queue when
memory responds, with an error too. A report that is next to be written goes out in ascending address
order, in transactions of up to four whole beats, each time that neither of the two waits. The size that
these writes carry, and that a report is done when its last beats are granted, are the model's choices
(notes/assumptions/6.md, notes/assumptions/25.md). -/
def Obligations.OwnWriteCommands : Prop :=
  let code : ResultCode → Byte
    | .ok => 0x00
    | .badCommand => 0x01
    | .badArg => 0x02
    | .badState => 0x03
    | .inUse => 0x04
    | .full => 0x05
    | .notFound => 0x06
    | .overlap => 0x07
    | .killed => 0x08
    | .lineActive => 0x09
    | .slotBusy => 0x0A
    | .notReady => 0x0B
    | .aborted => 0x0C
    | .blank => 0x20
    | .noDevice => 0x21
    | .busTimeout => 0x22
    | .imageOverrun => 0x23
    | .format => 0x24
  ((∀ (s : State) (r : ResultWord) (rest : List ResultWord),
     s.pins.resetN = true → s.own.writeBack = r :: rest → s.own.headWritten = false →
     (∀ x ∈ s.own.reports.head?, 0 < x.ahead) →
     s.conf.anchor.toNat + 65536 ≤ 4294967296 → s.conf.anchor.toNat % 65536 = 0 → r.slot < 64 →
     (∃ b : Beat, exec (.resultWrite false false) s = .next
         { s with out := [.memWrite .own 4 [b]], own := { s.own with headWritten := true } } ∧
       b.addr = s.conf.anchor.toNat + 32 * r.slot + 16 ∧ b.enables = 0x0F00 ∧
       b.low = 0 ∧ b.data.extractLsb' 64 8 = r.code ∧ b.data.extractLsb' 72 8 = code r.result ∧
       b.data.extractLsb' 80 16 = r.tag) ∧
     ∀ scan sys : Bool, scan = true ∨ sys = true →
       exec (.resultWrite scan sys) s = .next { s with out := [] }) ∧
   ∀ (s : State) (reply : MemResp), s.own.headWritten = true →
     exec (.writeBackDrain reply) s = .next
       { s with
         out := []
         own :=
           { writeBack := s.own.writeBack.tail, headWritten := false
             reports := s.own.reports.map fun r => { r with ahead := r.ahead - 1 } } }) ∧
  ∀ (s : State) (r : Report) (rest : List Report) (left : Nat) (more : Fin 4),
    s.pins.resetN = true → s.own.reports = r :: rest → r.ahead = 0 → r.words.length = 4 * left →
    0 < left →
    let j := if left < more.val + 1 then left else more.val + 1
    (exec (.reportWrite false false more) s = .next
      { s with
        out := [.memWrite .own 4 ((List.range j).map fun i =>
          { index := BitVec.ofNat 28 ((r.anchor.toNat + 0x800 + 16 * (r.next + i)) / 16), low := 0
            data := r.words.getD (4 * i + 3) 0 ++ r.words.getD (4 * i + 2) 0 ++
              r.words.getD (4 * i + 1) 0 ++ r.words.getD (4 * i) 0
            enables := 0xFFFF })]
        own := { s.own with reports :=
          if j = left then rest
          else { r with next := r.next + j, words := r.words.drop (4 * j) } :: rest } }) ∧
    ∀ scan sys : Bool, scan = true ∨ sys = true →
      exec (.reportWrite scan sys more) s = .next { s with out := [] }

/-! ### The scan port and the cue inputs -/

/-- R162, R173, R175, 12.5: the words of a report: each owner's values as they stand, every other byte
zero, the field count first and last. -/
def Obligations.ReportBlock : Prop :=
  ∀ s : State, s.LaneLaw →
    let w := fun k : Nat => s.reportWords.getD k 0
    s.reportWords.length = 128 ∧ w 0 = s.rep.count ∧ w 127 = s.rep.count ∧
    bits (w 1) 0 8 = (match s.device with
      | .loading => 0
      | .unconfigured => 1
      | .active => 2) ∧
    bits (w 1) 8 8 = s.cue.latch.toNat ∧ bits (w 1) 16 16 = s.pins.killN.toNat ∧
    bits (w 2) 0 8 = (match s.loader.status with
      | .loading => 0
      | .done => 1
      | .failed => 2) ∧
    bits (w 2) 8 24 = (match s.loader.reason with
      | none => 0
      | some .blank => 1
      | some .noDevice => 2
      | some .busTimeout => 3
      | some .imageOverrun => 4
      | some .format => 5) ∧
    w 3 = s.rep.events.setWidth 32 ∧ w 4 = s.rep.mask.setWidth 32 ∧
    w 5 = (0 : Byte) ++ s.clock.time.hours ++ s.clock.time.minutes ++ s.clock.time.seconds ∧
    (w 6).toNat = s.clock.acc % 65536 ∧ (w 7).toNat = s.intake.queue.length % 256 ∧
    bits (w 8) 0 16 = s.intake.overrun % 65536 ∧ (w 8).extractLsb' 16 16 = s.intake.lastTag ∧
    (w 9).toNat = (s.quotes.countP fun e => e.2.pend.isSome) % 65536 ∧
    (∀ n : Fin 4, (w 10).getLsbD n.val = (s.cue.inputs.get n).accepted) ∧
    (w 10).getLsbD 4 = s.cue.out0 ∧ (w 10).getLsbD 5 = s.cue.out1 ∧ bits (w 10) 6 26 = 0 ∧
    (∀ n : Fin 4,
      let l := s.lane n
      let r := 16 + 8 * n.val
      bits (w r) 0 8 = (match l.state with
        | .off => 0
        | .armed => 1
        | .running => 2
        | .held => 3
        | .draining => 4
        | .fadingOut => 5
        | .killed => 6) ∧
      bits (w r) 8 8 = (match l.resume with
        | .running => 0
        | .draining => 1) ∧
      bits (w r) 16 16 = l.fade ∧ (w (r + 1)).toNat = l.offset ∧
      bits (w (r + 2)) 0 8 = l.placed.length ∧ bits (w (r + 2)) 8 8 = l.ring.length ∧
      bits (w (r + 2)) 16 16 = l.passCount ∧ (w (r + 3)).toNat = l.dwellCount ∧
      (l.placed = [] → w (r + 4) = 0xFFFFFFFF) ∧
      (∀ i ∈ l.ring.head?, l.placed ≠ [] → w (r + 4) = (s.item i).tag.setWidth 32) ∧
      w (r + 5) = 0 ∧ w (r + 6) = 0 ∧ w (r + 7) = 0) ∧
    (∀ n : Fin 4,
      let c := (s.cue.inputs.get n).capture
      let r := 48 + 4 * n.val
      bits (w r) 0 8 = c.valid.toNat + 2 * c.overwritten.toNat ∧ bits (w r) 8 8 = c.lane.val ∧
      bits (w r) 16 16 = (match c.item with
        | none => 65535
        | some i => i % 65536) ∧
      w (r + 1) = (match c.tag with
        | none => 0xFFFFFFFF
        | some t => t.setWidth 32) ∧
      w (r + 2) = c.count ∧ w (r + 3) = 0) ∧
    ∀ k, (11 ≤ k ∧ k ≤ 15) ∨ (64 ≤ k ∧ k ≤ 126) → w k = 0

/-- R92, R94, R129, R131 to R134, R161, R162: what a scan read in ACTIVE does with its frame line.
An address within a window lies on the frame line that its offset gives, window 0 deciding where both hold
it; one within neither has none. The line register takes the line.
A line that the register already holds is no line start, whatever the order of the shares: the read is
the report line event when the line is at or beyond the report line, the taken flag is clear and no
report is being written.
At a line start every input is sampled once, in the order in which the shares arrive. Without the filter
the sample is accepted, with it a level is accepted at its third equal sample. Where the read
is the report line event too, the snapshot shows what the inputs sampled before it have done. With every
action NONE nothing else changes. The order of the shares is notes/assumptions/4.md.
One input's selected edge fires its action: CAPTURE writes the record of the entry under the cue column of
the lowest-numbered lane of the mask and sets CUE_CAPTURE; a lane action acts on each lane of the mask,
ascending, and sets ACTION_REFUSED where one refuses. -/
def Obligations.LineStartsAndReports : Prop :=
  (∀ (s : State) (addr : Word),
    let decodes := fun (d : DecodeConfig) (o : Nat) =>
      (d.base0.toNat ≤ addr.toNat ∧ addr.toNat < d.base0.toNat + d.lines * d.pitch ∧
        addr.toNat = d.base0.toNat + o) ∨
      (¬ (d.base0.toNat ≤ addr.toNat ∧ addr.toNat < d.base0.toNat + d.lines * d.pitch) ∧
        d.base1.toNat ≤ addr.toNat ∧ addr.toNat < d.base1.toNat + d.lines * d.pitch ∧
        addr.toNat = d.base1.toNat + o)
    (∀ (d : DecodeConfig) (o : Nat), s.conf.decode = some d → decodes d o →
      s.frameLine addr.toNat = some (o / d.pitch) ∧
      ∀ (burst : Burst) (levels : Four Bool) (order : List ReadTok), s.OnAir →
        ∃ t : State, exec (.scanRead addr burst levels order) s = .next t ∧
          t.cue.lineReg = some (o / d.pitch)) ∧
    ((∀ (d : DecodeConfig) (o : Nat), s.conf.decode = some d → ¬ decodes d o) →
      s.frameLine addr.toNat = none)) ∧
  (∀ (s : State) (addr : Word) (burst : Burst) (line : Nat) (levels : Four Bool)
     (order : List ReadTok), s.OnAir → s.frameLine addr.toNat = some line →
     s.cue.lineReg = some line →
     let s1 : State :=
       { s with
         out := [.memRead .scan addr burst.len burst.size], pins := { s.pins with cueIn := levels } }
     exec (.scanRead addr burst levels order) s = .next (
       if (∃ r, s.conf.reportLine = some r ∧ r ≤ line) ∧ s.rep.taken = false ∧ s.own.reports = [] then
         { s1 with
           rep := { s.rep with taken := true }
           own := { s.own with reports :=
             [{ anchor := s.conf.anchor, next := 0, words := s.reportWords
                ahead := s.own.writeBack.length }] } }
       else s1)) ∧
  let sampled := fun (i : CueInput) (level : Bool) =>
    let run := if level = i.last then (if i.run < 3 then i.run + 1 else 3) else 1
    { i with last := level, run := run
             accepted := if i.filter = false ∨ run = 3 then level else i.accepted }
  (∀ (s : State) (addr : Word) (burst : Burst) (line : Nat) (levels : Four Bool)
    (order : List ReadTok), s.OnAir → s.frameLine addr.toNat = some line →
    s.cue.lineReg ≠ some line →
    let s1 : State :=
      { s with
        out := [.memRead .scan addr burst.len burst.size], pins := { s.pins with cueIn := levels }
        cue := { s.cue with lineReg := some line } }
    let cues := (order.filterMap fun t => match t with
      | .cue n => some n
      | .report => none) ++ [0, 1, 2, 3]
    let event := (∃ r, s.conf.reportLine = some r ∧ r ≤ line) ∧ s.rep.taken = false ∧ s.own.reports = []
    (¬ event →
      exec (.scanRead addr burst levels order) s = .next (cues.eraseDups.foldl State.sampleCue s1)) ∧
    (event →
      let before := (order.takeWhile fun t => t != .report).filterMap fun t => match t with
        | .cue n => some n
        | .report => none
      let early := if .report ∈ order then before.eraseDups else cues.eraseDups
      let x := early.foldl State.sampleCue s1
      let shown : State :=
        { x with
          rep := { x.rep with taken := true }
          own := { x.own with reports :=
            [{ anchor := s.conf.anchor, next := 0, words := x.reportWords
               ahead := s.own.writeBack.length }] } }
      exec (.scanRead addr burst levels order) s = .next (
        (cues.eraseDups.filter fun n => n ∉ early).foldl State.sampleCue shown)) ∧
    ((∀ n : Fin 4, (s.cue.inputs.get n).action = .none) →
      let inputs : Four CueInput :=
        ⟨sampled s.cue.inputs.e0 levels.e0, sampled s.cue.inputs.e1 levels.e1,
         sampled s.cue.inputs.e2 levels.e2, sampled s.cue.inputs.e3 levels.e3⟩
      let s2 : State := { s1 with cue := { s1.cue with inputs := inputs } }
      let early := (order ++ [ReadTok.cue 0, .cue 1, .cue 2, .cue 3]).takeWhile (· != .report)
      let seen := fun (n : Fin 4) =>
        if ReadTok.cue n ∈ early then inputs.get n else s.cue.inputs.get n
      let shown : State :=
        { s1 with cue := { s1.cue with inputs := ⟨seen 0, seen 1, seen 2, seen 3⟩ } }
      exec (.scanRead addr burst levels order) s = .next (
        if (∃ r, s.conf.reportLine = some r ∧ r ≤ line) ∧ s.rep.taken = false ∧ s.own.reports = [] then
          { s2 with
            rep := { s.rep with taken := true }
            own := { s.own with reports :=
              [{ anchor := s.conf.anchor, next := 0, words := shown.reportWords
                 ahead := s.own.writeBack.length }] } }
        else s2))) ∧
  ∀ (s : State) (n : Fin 4),
    let i := s.cue.inputs.get n
    let i' := sampled i (s.pins.cueIn.get n)
    let fires := (i.edge ≠ .fall ∧ i.accepted = false ∧ i'.accepted = true) ∨
      (i.edge ≠ .rise ∧ i.accepted = true ∧ i'.accepted = false)
    let s1 := s.setInput n i'
    (¬ fires ∨ i.action = .none → s.sampleCue n = s1) ∧
    (∀ a : LaneAction, i.action = .lane a → fires →
      let go := fun (x : State × Bool) (m : Fin 4) =>
        if i.mask.getLsbD m.val then ((x.1.actOnLane a m).1, x.2 || (x.1.actOnLane a m).2.isSome) else x
      let r := go (go (go (go (s1, false) 0) 1) 2) 3
      s.sampleCue n = if r.2 = true then r.1.raise .actionRefused else r.1) ∧
    ∀ m : Fin 4, i.action = .capture → i.mask.getLsbD m.val = true →
      (∀ k : Fin 4, k < m → i.mask.getLsbD k.val = false) → fires →
      ∃ found : Option (Nat × Placement),
        (∀ x ∈ found, x ∈ (s.lane m).entries ∧
          x.2.start ≤ ((s.lane m).offset / 256 : Nat) + ((s.lane m).motion.cueColumn : Int) ∧
          ((s.lane m).offset / 256 : Nat) + ((s.lane m).motion.cueColumn : Int) <
            x.2.start + x.2.width) ∧
        (found = none → ∀ x ∈ (s.lane m).entries,
          ¬ (x.2.start ≤ ((s.lane m).offset / 256 : Nat) + ((s.lane m).motion.cueColumn : Int) ∧
            ((s.lane m).offset / 256 : Nat) + ((s.lane m).motion.cueColumn : Int) <
              x.2.start + x.2.width)) ∧
        s.sampleCue n =
          (s.setInput n
            { i' with
              capture :=
                { valid := true, overwritten := i.capture.valid, lane := m
                  item := found.map fun x => x.1, tag := found.map fun x => (s.item x.1).tag
                  count := s.rep.count } }).raise (.cueCapture n)

/-- R93, R96, R97, R138: a beat of the scan path changes no state. It is returned as memory holds it outside
ACTIVE, while the kill latch is set, and where memory answered with an error; otherwise each of its four
words is composed at its own address, all from one state. Bits 31..30 of every word are returned as
read. A write at the scan port is answered with an error and changes nothing. -/
def Obligations.ScanBeats : Prop :=
  (∀ (s : State) (index : BitVec 28) (ws : Four Word) (reply : MemResp), s.pins.resetN = true →
    ∃ ws' : Four Word,
      exec (.scanBeat index ws reply) s = .next { s with out := [.scanData ws' reply] } ∧
      (s.device ≠ .active ∨ s.cue.latch = true ∨ reply = .error → ws' = ws) ∧
      (reply = .okay → ∀ i : Fin 4,
        ws'.get i = s.composeWord (16 * index.toNat + 4 * i.val) (ws.get i)) ∧
      ∀ i : Fin 4, (ws'.get i).extractLsb' 30 2 = (ws.get i).extractLsb' 30 2) ∧
  ∀ (s : State) (addr : Word), s.pins.resetN = true →
    exec (.scanWrite addr) s = .next { s with out := [.scanWriteError] }

/-- R105, R106: the blend. The band pixel and the band alpha are mixed by the coverage weight, the alpha
is scaled by the fade level, and the memory pixel is mixed with the band; at a scaled alpha of 0 the word
is returned whole; the legalize flag clamps each component. -/
def Obligations.BlendArithmetic : Prop :=
  ∀ (w : Word) (fill text : Color) (alpha k g : Nat) (legalize : Bool),
    fill.y ≤ 1023 → fill.cb ≤ 1023 → fill.cr ≤ 1023 → text.y ≤ 1023 → text.cb ≤ 1023 →
    text.cr ≤ 1023 → alpha ≤ 256 → k ≤ 256 → g ≤ 256 →
    let band := fun f t : Nat => (f * (256 - k) + t * k + 128) / 256
    let a := ((alpha * (256 - k) + 256 * k + 128) / 256 * g + 128) / 256
    let out := fun (p b hi : Nat) =>
      let o := (p * (256 - a) + b * a + 128) / 256
      if legalize = false then o else if o < 64 then 64 else if hi < o then hi else o
    let o := blendWord w fill text alpha k g legalize
    a ≤ 256 ∧
    (a = 0 → o = w) ∧
    (0 < a → bits o 20 10 = out (bits w 20 10) (band fill.y text.y) 940 ∧
      bits o 10 10 = out (bits w 10 10) (band fill.cb text.cb) 960 ∧
      bits o 0 10 = out (bits w 0 10) (band fill.cr text.cr) 960 ∧
      o.extractLsb' 30 2 = w.extractLsb' 30 2)

/-- R98 to R104: the strip behind a column of a lane. A strip position takes its coverage from the first
placed entry that covers it, and there from the glyph whose bitmap holds it, on the font row that the text
top gives, in the font whose number the entry's style holds; the gap, the pads and the rows outside the
font have none. The two samples are weighted by the
fraction. Over an entry the fill is flashed and the text color goes by the item, over the gap both are the
lane style's, whose legalize flag holds everywhere. -/
def Obligations.StripBehindColumn : Prop :=
  ∀ (s : State) (l : Lane) (line : Nat),
    let covers := fun (x : Nat × Placement) (t : Int) =>
      x.2.start ≤ t ∧ t < x.2.start + (x.2.width : Int)
    (∀ k : Style, k.width.font < 4 →
      [s.fonts.e0, s.fonts.e1, s.fonts.e2, s.fonts.e3][k.width.font]? = some (s.fontOf k)) ∧
    (∀ t : Int, (∀ x ∈ l.entries, ¬ covers x t) → s.coverage l line t = 0) ∧
    (∀ (t : Int) (before after : List (Nat × Placement)) (x : Nat × Placement),
      l.entries = before ++ x :: after → (∀ y ∈ before, ¬ covers y t) → covers x t →
      let k := s.style x.2.style
      let font := s.fontOf k
      let r := (t - x.2.start).toNat
      let top :=
        if font.height ≤ l.form.height then l.form.top + (l.form.height - font.height) / 2
        else l.form.top
      let holds := fun g : GlyphPlace => g.pos ≤ r ∧ r < g.pos + (font.glyph g.code).width
      let run := s.sourceRun k (s.item x.1).source
      (line < top ∨ top + font.height ≤ line ∨ (∀ g ∈ run, ¬ holds g) → s.coverage l line t = 0) ∧
      ∀ (left right : List GlyphPlace) (g : GlyphPlace), top ≤ line → line < top + font.height →
        run = left ++ g :: right → (∀ y ∈ left, ¬ holds y) → holds g →
        s.coverage l line t = 17 *
          ((font.glyph g.code).nibbles.getD
            ((line - top) * (font.glyph g.code).width + (r - g.pos)) 0).toNat) ∧
    ∀ (col : Nat) (w : Word), l.form.left ≤ col →
      let sp : Int := ((l.offset / 256 + (col - l.form.left) : Nat) : Int)
      let f := l.offset % 256
      let c := ((256 - f) * s.coverage l line sp + f * s.coverage l line (sp + 1) + 128) / 256
      let lane := s.style l.form.style
      ((∀ x ∈ l.entries, ¬ covers x sp) →
        s.composeUnder l line col w =
          blendWord w lane.colors.fill lane.colors.text lane.flash.alpha (c + c / 128) l.fade
            lane.flash.legalize) ∧
      ∀ (before after : List (Nat × Placement)) (x : Nat × Placement),
        l.entries = before ++ x :: after → (∀ y ∈ before, ¬ covers y sp) → covers x sp →
        let k := s.style x.2.style
        let h := x.2.env.level / 256 + x.2.env.level / 256 / 128
        let fl := match x.2.env.direction with
          | .up => k.flash.flashUp
          | .down => k.flash.flashDown
        let flashed := fun a b : Nat => (a * (256 - h) + b * h + 128) / 256
        let fill : Color :=
          { y := flashed k.colors.fill.y fl.y, cb := flashed k.colors.fill.cb fl.cb
            cr := flashed k.colors.fill.cr fl.cr }
        let text := match (s.item x.1).source with
          | .text _ | .clock => k.colors.text
          | .quote q =>
            match (s.quote q).shown with
            | none => k.colors.text
            | some v =>
              if v.status = .halted then k.colors.halt
              else if 0 < v.change then k.colors.up
              else if v.change < 0 then k.colors.down
              else k.colors.flat
        s.composeUnder l line col w =
          blendWord w fill text k.flash.alpha (c + c / 128) l.fade lane.flash.legalize

/-- R94, R95, R97, R6: which words are composited. A word is under a lane when the part is ACTIVE with the
latch clear, the word lies in the active area of the window that decodes it, its frame line belongs to the
current field and the lane's rectangle holds it in a composing state. It is then composed under that lane,
the only one there is; every other word is returned as memory holds it. -/
def Obligations.WordUnderLane : Prop :=
  ∀ (s : State) (addr : Nat) (w : Word), s.LinesLaw →
    let offset := fun (d : DecodeConfig) (o : Nat) =>
      (d.base0.toNat ≤ addr ∧ addr < d.base0.toNat + d.lines * d.pitch ∧ addr = d.base0.toNat + o) ∨
      (¬ (d.base0.toNat ≤ addr ∧ addr < d.base0.toNat + d.lines * d.pitch) ∧
        d.base1.toNat ≤ addr ∧ addr < d.base1.toNat + d.lines * d.pitch ∧ addr = d.base1.toNat + o)
    let under := fun (n : Fin 4) (line col : Nat) =>
      s.device = .active ∧ s.cue.latch = false ∧
      (∃ (d : DecodeConfig) (o : Nat), s.conf.decode = some d ∧ offset d o ∧
        o % d.pitch < 4 * d.width ∧ line = o / d.pitch ∧ col = o % d.pitch / 4 ∧
        (d.interlaced = true → line % 2 = if s.parity then 1 else 0)) ∧
      (s.lane n).form.top ≤ line ∧ line < (s.lane n).form.top + (s.lane n).form.height ∧
      (s.lane n).form.left ≤ col ∧ col ≤ (s.lane n).form.right ∧
      (s.lane n).state ≠ .off ∧ (s.lane n).state ≠ .killed
    (∀ n line col, under n line col → s.composeWord addr w = s.composeUnder (s.lane n) line col w) ∧
    ((∀ n line col, ¬ under n line col) → s.composeWord addr w = w)

/-! ### The formatter -/

/-- R68 to R75: the text of a quote. A magnitude is written without leading zeros, with one point and
exactly its decimals after it and, in the price alone, commas between groups of three and none at the left; its digits are the number. The percent
figure is the nearest count of hundredths, halves away from zero, saturated. -/
def Obligations.QuoteTextRules : Prop :=
  (∀ (sep : Bool) (d m : Nat), d ≤ 4 → m ≤ 2147483648 →
    let t := magnitudeText sep d m
    let digits := t.filter fun c => c != 0x2C && c != 0x2E
    (∀ c ∈ digits, 0x30 ≤ c.toNat ∧ c.toNat ≤ 0x39) ∧
    digits.foldl (fun a c => 10 * a + (c.toNat - 0x30)) 0 = m ∧
    ∃ int frac : List Byte, t = int ++ frac ∧ (∀ c ∈ int, c ≠ 0x2E) ∧ (∀ c ∈ frac, c ≠ 0x2C) ∧
      int ≠ [] ∧ (d = 0 → frac = []) ∧ (0 < d → frac.head? = some 0x2E ∧ frac.length = d + 1) ∧
      (∀ c ∈ frac.tail, c ≠ 0x2E) ∧ int.head? ≠ some 0x2C ∧ (int.head? = some 0x30 → int = [0x30]) ∧
      ∀ i, i < int.length → (int.reverse[i]? = some 0x2C ↔ sep = true ∧ i % 4 = 3)) ∧
  (∀ c prev : Int, 0 < prev →
    let p := percentFigure c prev
    (0 ≤ c → 0 ≤ p) ∧ (c ≤ 0 → p ≤ 0) ∧ p.natAbs ≤ 99999 ∧
    2 * (p.natAbs * prev.natAbs) ≤ 2 * (c * 10000).natAbs + prev.natAbs ∧
    (p.natAbs < 99999 → 2 * (c * 10000).natAbs < 2 * (p.natAbs * prev.natAbs) + prev.natAbs)) ∧
  ∀ (v : QuoteValue) (sep flag : Bool),
    let prev := v.price - v.change
    let p := percentFigure v.change prev
    let sign := fun x : Int => if 0 < x then [(0x2B : Byte)] else if x < 0 then [0x2D] else []
    let arrow : Byte :=
      if v.status = .halted then 0x1D else if 0 < v.change then 0x1E
      else if v.change < 0 then 0x1F else 0x1D
    quoteText v sep flag =
      (if v.symbol = [] then [] else v.symbol ++ [0x20]) ++
      ((if v.price < 0 then [0x2D] else []) ++ magnitudeText sep v.decimals v.price.natAbs) ++
      [0x20, arrow] ++ (sign v.change ++ magnitudeText false v.decimals v.change.natAbs) ++
      (if v.percent = true ∧ flag = true ∧ 0 < prev then
        [0x20, 0x28] ++ (sign p ++ magnitudeText false 2 p.natAbs) ++ [0x25, 0x29]
      else [])

/-- R66, R76 to R80, R114, R119: the font is the one whose number the style holds; the text of a chain, at most ten segments of it; the glyph run of a text or quote
from its pad on, each glyph where the one before it ends; the widths; and the clock, its digits, each in
the middle of its cell, of one width at every time of day. -/
def Obligations.GlyphRunsAndWidths : Prop :=
  (∀ (f : Font) (pos i : Nat) (text : List Byte),
    (f.layout pos text)[i]? = text[i]?.map fun c =>
      let drawn := if (f.glyph c).advance = 0 then 0 else c
      ({ code := drawn, pos := pos + ((text.take i).map f.advance).sum
         advance := (f.glyph drawn).advance } : GlyphPlace)) ∧
  (∀ d, d < 10 → (digitCode d).toNat = 0x30 + d) ∧
  (∀ (t : TimeOfDay) (seconds : Bool),
    let two := fun b : Byte => [digitCode (b.toNat / 16), digitCode (b.toNat % 16)]
    clockText t seconds =
      two t.hours ++ [0x3A] ++ two t.minutes ++ (if seconds then [0x3A] ++ two t.seconds else [])) ∧
  (∀ (s : State) (head : Nat),
    let read := s.textSegments head
    read.head? = some head ∧ read.length ≤ 10 ∧
    (∀ i k, read[i]? = some k → i + 1 < 10 → read[i + 1]? = (s.segment k).next) ∧
    s.chainText head = (read.map fun k => (s.segment k).codes.take (s.segment k).count).flatten) ∧
  ∀ (s : State) (k : Style),
    let f := s.fontOf k
    let text := clockText s.clock.time k.width.seconds
    let cell := fun c : Byte => if c = 0x3A then f.advance 0x3A else f.digitCell
    (k.width.font < 4 →
      [s.fonts.e0, s.fonts.e1, s.fonts.e2, s.fonts.e3][k.width.font]? = some f) ∧
    (∀ head, s.sourceRun k (.text head) = f.layout k.width.pad (s.chainText head)) ∧
    (∀ q v, (s.quote q).shown = some v →
      s.sourceRun k (.quote q) =
        f.layout k.width.pad (quoteText v k.width.separators k.width.percent) ∧
      s.sourceWidth k (.quote q) = s.quoteWidth k v) ∧
    (∀ head, s.sourceWidth k (.text head) =
      2 * k.width.pad + ((s.chainText head).map f.advance).sum) ∧
    (∀ v, s.quoteWidth k v =
      max (2 * k.width.pad + ((quoteText v k.width.separators k.width.percent).map f.advance).sum)
        k.width.minWidth) ∧
    (∀ d, d < 10 → f.advance (digitCode d) ≤ f.digitCell) ∧
    (∃ d, d < 10 ∧ f.advance (digitCode d) = f.digitCell) ∧
    (s.clock.time.valid = true →
      s.sourceWidth k .clock = 2 * k.width.pad + (if k.width.seconds then 6 else 4) * f.digitCell +
        (if k.width.seconds then 2 else 1) * f.advance 0x3A) ∧
    ∀ i, (s.sourceRun k .clock)[i]? = text[i]?.map fun c =>
      ({ code := f.drawn c
         pos := k.width.pad + ((text.take i).map cell).sum + (cell c - f.advance c) / 2
         advance := f.advance c } : GlyphPlace)

/-! ### The field start -/

/-- R9, R14 to R17, R29, R30, R38, R42: the steps of a lane's field start work that look at the lane alone,
in the order of R8 and R28: the take, ARMED to RUNNING, the advance or dwell count, the rebase, the
envelopes, the drain check, the fade step and the entry to OFF. `w.step` is the number of the next step, and
what follows the last does nothing. -/
def Obligations.LaneStepRules : Prop :=
  ∀ (s : State) (n : Fin 4) (w : LaneWork),
    let l := s.lane n
    let w' : LaneWork := { w with step := w.step + 1 }
    let works := l.state = .running ∨ l.state = .held ∨ l.state = .draining ∨ l.state = .fadingOut
    let moves := l.state = .running ∨ l.state = .draining ∨
      (l.state = .fadingOut ∧ l.motionOn = true)
    (w.step = 0 → s.laneStep n w = (
      if l.takeMark = true then
        let f := l.pendForm.getD l.form
        let m := l.pendMotion.getD l.motion
        let column :=
          if (l.pendForm ≠ none ∨ l.pendMotion ≠ none) ∧ f.right - f.left < m.cueColumn then
            f.right - f.left
          else m.cueColumn
        s.setLane n
          { l with form := f, motion := { m with cueColumn := column }, pendForm := none
                   pendMotion := none, takeMark := false }
      else s, w')) ∧
    (w.step = 1 → s.laneStep n w =
      if l.state = .armed then
        (s.setLane n { l with state := .running, fade := if l.motion.fade = 0 then 256 else 0 },
         { w' with begun := true })
      else (s, { w' with begun := false })) ∧
    (w.step = 2 → s.laneStep n w =
      if works ∧ l.form.kind = .crawl then
        (if moves ∧ w.begun = false then
          s.setLane n { l with offset := l.offset + l.motion.speed }
         else s, { w' with noted := ((l.offset / 256 : Nat) : Int) })
      else if moves ∧ l.form.kind = .flip ∧ w.begun = false ∧ l.placed ≠ [] then
        (s.setLane n
          { l with dwellCount := if l.dwellCount < 65535 then l.dwellCount + 1 else 65535 },
         { w' with counted := true })
      else (s, w')) ∧
    (w.step = 3 → s.laneStep n w =
      if works ∧ l.form.kind = .crawl ∧ 268435456 ≤ l.offset then
        (s.setLane n
          { l with offset := l.offset - 268435456
                   placed := l.placed.map fun p => { p with start := p.start - 1048576 } },
         { w' with noted := w.noted - 1048576 })
      else (s, w')) ∧
    (w.step = 7 → s.laneStep n w = (
      if works then
        s.setLane n
          { l with placed := l.placed.map fun p => { p with env := p.env.step (s.style p.style) } }
      else s, w')) ∧
    (w.step = 8 → s.laneStep n w = (
      if l.state = .draining ∧ l.placed = [] then
        s.setLane n { l with state := .fadingOut, motionOn := true }
      else s, w')) ∧
    (w.step = 9 → s.laneStep n w = (
      let rate := (256 + l.motion.fade - 1) / l.motion.fade
      match l.state with
      | .running | .held | .draining =>
        s.setLane n
          { l with fade := if l.motion.fade = 0 ∨ 256 < l.fade + rate then 256 else l.fade + rate }
      | .fadingOut =>
        s.setLane n { l with fade := if l.motion.fade = 0 ∨ l.fade < rate then 0 else l.fade - rate }
      | .off | .armed | .killed => s, w')) ∧
    (w.step = 10 → s.laneStep n w = (
      if l.state = .fadingOut ∧ l.fade = 0 then
        (s.setLane n
          { l with state := .off, placed := [], offset := 0, passCount := 0, dwellCount := 0
                   resume := .running, motionOn := true, pendForm := none, pendMotion := none
                   takeMark := false }).raise (.laneOff n)
      else s, w')) ∧
    (11 ≤ w.step → s.laneStep n w = (s, w))

/-- R31 to R34, R43, R136: the retire or page end step and the cue crossing step. The head retires to the
tail or out of the ring while it lies left of the left edge, on a FLIP lane when its page was counted and
has reached the dwell; a marker counts a pass, which may drain the lane; an emptied ring sets LANE_EMPTY.
Each entry whose left edge has crossed the cue column hands its action to the cue outputs, head first, and
every last edge becomes the present one. -/
def Obligations.RetireAndCrossing : Prop :=
  ∀ (s : State) (n : Fin 4) (w : LaneWork),
    let l := s.lane n
    let w' : LaneWork := { w with step := w.step + 1 }
    let works := l.state = .running ∨ l.state = .held ∨ l.state = .draining ∨ l.state = .fadingOut
    let px : Int := ((l.offset / 256 : Nat) : Int)
    (w.step = 4 →
      (¬ works → s.laneStep n w = (s, w')) ∧
      (l.form.kind = .crawl → (∀ p ∈ l.placed.head?, px < p.start + p.width) →
        s.laneStep n w = (s, w')) ∧
      (l.form.kind = .flip → (w.counted = false ∨ l.dwellCount < l.motion.dwell) →
        s.laneStep n w = (s, w')) ∧
      ∀ (i : Nat) (ring : List Nat) (p : Placement) (placed : List Placement), works →
        l.ring = i :: ring → l.placed = p :: placed →
        let it := s.item i
        let stays := it.repeats = true ∧ p.noRepeat = false
        let count := if l.passCount < 255 then l.passCount + 1 else 255
        let limit := it.marker = true ∧ l.motion.passLimit ≠ 0 ∧ l.motion.passLimit ≤ count
        let l1 : Lane :=
          { l with
            state := if limit ∧ l.state = .running then .draining else l.state
            resume := if limit ∧ l.state = .held then .draining else l.resume
            passCount := if limit then 0 else if it.marker = true then count else l.passCount
            ring := if stays then ring ++ [i] else ring, placed := placed }
        let ends := fun x : State => if ¬ stays ∧ ring = [] then x.raise (.laneEmpty n) else x
        (l.form.kind = .crawl → p.start + p.width ≤ px →
          s.laneStep n w = (ends (s.setLane n l1)).laneStep n w) ∧
        (l.form.kind = .flip → w.counted = true → l.motion.dwell ≤ l.dwellCount →
          s.laneStep n w = (ends (s.setLane n { l1 with dwellCount := 0 }), w'))) ∧
    (w.step = 5 → s.laneStep n w = (
      if works ∧ l.form.kind = .crawl then
        let hand := fun (u : CueUnit) (x : Nat × Placement) =>
          if (l.motion.cueColumn : Int) < x.2.lastEdge ∧
              x.2.start - px ≤ (l.motion.cueColumn : Int) ∧ u.latch = false then
            match (s.item x.1).cueOut with
            | .none => u
            | .set0 => { u with out0 := true }
            | .clear0 => { u with out0 := false }
            | .toggle0 => { u with out0 := !u.out0 }
            | .set1 => { u with out1 := true }
            | .clear1 => { u with out1 := false }
            | .toggle1 => { u with out1 := !u.out1 }
          else u
        State.setLane { s with cue := l.entries.foldl hand s.cue } n
          { l with placed := l.placed.map fun p => { p with lastEdge := p.start - px } }
      else s, w'))

/-- R33, R35 to R37, R43, R44: the place step. It is taken in RUNNING, and in HELD with resume target
RUNNING, and examines no more entries than stood unplaced. An entry with nothing to show is skipped to the
tail or out of the ring. On a CRAWL lane an entry is placed while there is room for it and fewer than 48
are, at the right edge on an empty strip, else behind the entry before it with the gap, and never left of
the entry floor; on a FLIP lane the first entry with something to show becomes the page, and its cue-out
action is handed over. -/
def Obligations.PlaceStep : Prop :=
  ∀ (s : State),
    let shows := fun it : Item => match it.source with
      | .text head => s.chainText head ≠ []
      | .quote q => ∃ v, (s.quote q).shown = some v ∧ v.status ≠ .closed
      | .clock => True
    let record := fun (l : Lane) (it : Item) (start : Int) =>
      let k := match it.override with
        | some k => k
        | none => l.form.style
      ({ start := start, width := s.sourceWidth (s.style k) it.source, style := k
         env := { phase := .idle, level := 0, direction := .up, hold := 0 }
         lastEdge := ((l.form.right - l.form.left + 1 : Nat) : Int), noRepeat := false } : Placement)
    (∀ (l : Lane) (floor : Int) (u : Nat),
      s.placeLoop floor 0 l = (l, false) ∧
      (48 ≤ l.placed.length ∨ l.ring.length ≤ l.placed.length → s.placeLoop floor u l = (l, false)) ∧
      ∀ (placed waiting : List Nat) (i : Nat), l.ring = placed ++ i :: waiting →
        placed.length = l.placed.length → l.placed.length < 48 →
        let it := s.item i
        let right : Int := ((l.offset / 256 + (l.form.right - l.form.left + 1) : Nat) : Int)
        let after := fun q : Placement => q.start + (q.width : Int) + (l.motion.gap : Int)
        (¬ shows it →
          let r := s.placeLoop floor u
            { l with ring := if it.repeats = true then placed ++ waiting ++ [i] else placed ++ waiting }
          s.placeLoop floor (u + 1) l =
            (r.1, r.2 || (!it.repeats && (placed ++ waiting).isEmpty))) ∧
        (shows it → l.placed = [] →
          s.placeLoop floor (u + 1) l = s.placeLoop floor u { l with placed := [record l it right] }) ∧
        ∀ q : Placement, l.placed.getLast? = some q → shows it →
          s.placeLoop floor (u + 1) l =
            if right < after q then (l, false)
            else s.placeLoop floor u
              { l with placed := l.placed ++
                  [record l it (if after q < floor then floor else after q)] }) ∧
    (∀ (l : Lane) (u : Nat), l.placed = [] →
      s.placePage 0 l = (l, false, none) ∧
      (l.ring = [] → s.placePage u l = (l, false, none)) ∧
      ∀ (i : Nat) (waiting : List Nat), l.ring = i :: waiting →
        let it := s.item i
        (¬ shows it →
          let r := s.placePage u
            { l with ring := if it.repeats = true then waiting ++ [i] else waiting }
          s.placePage (u + 1) l = (r.1, r.2.1 || (!it.repeats && waiting.isEmpty), r.2.2)) ∧
        (shows it → s.placePage (u + 1) l =
          ({ l with placed := [record l it 0], dwellCount := 0 }, false, some it.cueOut))) ∧
    ∀ (n : Fin 4) (w : LaneWork), w.step = 6 →
      let l := s.lane n
      let w' : LaneWork := { w with step := 7 }
      let places := l.state = .running ∨ (l.state = .held ∧ l.resume = .running)
      let emptied := fun (b : Bool) (x : State) => if b = true then x.raise (.laneEmpty n) else x
      (¬ places ∨ (l.form.kind = .flip ∧ l.placed ≠ []) → s.laneStep n w = (s, w')) ∧
      (places → l.form.kind = .crawl →
        let r := s.placeLoop (w.noted + ((l.form.right - l.form.left + 1 : Nat) : Int))
          (l.ring.length - l.placed.length) l
        s.laneStep n w = (emptied r.2 (s.setLane n r.1), w')) ∧
      (places → l.form.kind = .flip → l.placed = [] →
        let r := s.placePage l.ring.length l
        let s1 := match r.2.2 with
          | none => s
          | some a => { s with cue := s.cue.apply a }
        s.laneStep n w = (emptied r.2.1 (s1.setLane n r.1), w'))

/-- R8, R54, R122, R124, R130: a field start in ACTIVE, whatever the order in which the blocks' shares
arrive (notes/assumptions/3.md), is its shares one after another: one transfer of the style table, one check
of each slot that has a pending value and of no other, the eleven steps of each lane's work, and one
accumulation of the clock, which falls before a lane's work or after it. Every such sequence is taken where
it is the order that arrives. An accumulation adds D to acc where the sum is below N; else it is the second
tick, what SECOND_TICK does. Each lane's steps hand its cue-out actions to the outputs as they stand.
Where no other share reaches what a lane reads (nothing is pending in a quote slot or a style, and the clock
does not tick), each lane is as its own eleven steps leave it. -/
def Obligations.FieldStartLaneWork : Prop :=
  (let start : LaneWork := { step := 0, begun := false, counted := false, noted := 0 }
   let share := fun (x : State × Four LaneWork) (t : FieldTok) => match t with
     | .styles => (x.1.transferStyles, x.2)
     | .slot k => (x.1.checkSlot k, x.2)
     | .lane n => ((x.1.laneStep n (x.2.get n)).1, x.2.set n (x.1.laneStep n (x.2.get n)).2)
     | .clock => (x.1.accumulate, x.2)
   let whole := fun (s : State) (shares : List FieldTok) =>
     shares.count .styles = 1 ∧ shares.count .clock = 1 ∧
     (∀ k, shares.count (.slot k) = if (s.quote k).pend = none then 0 else 1) ∧
     (∀ n : Fin 4, shares.count (.lane n) = 11) ∧
     ∀ (before after : List FieldTok) (n : Fin 4), shares = before ++ .clock :: after →
       .lane n ∉ before ∨ .lane n ∉ after
   (∀ (s : State) (parity : Bool), s.OnAir → Store.wf QuoteSlot.initial s.quotes = true →
     let head : State :=
       { s with
         out := [], parity := parity, pins := { s.pins with parity := parity }
         rep := { s.rep with count := s.rep.count + 1, taken := false }
         cue := { s.cue with lineReg := none } }
     let after := fun shares : List FieldTok =>
       (shares.foldl share (head, ⟨start, start, start, start⟩)).1
     (∀ order : List FieldTok, ∃ shares : List FieldTok, whole s shares ∧
       exec (.fieldStart parity order) s = .next (after shares)) ∧
     ∀ shares : List FieldTok, whole s shares →
       exec (.fieldStart parity shares) s = .next (after shares)) ∧
   ∀ (x : State) (r : FieldRate), x.OnAir → x.conf.rate = some r →
     (x.clock.acc + r.d < r.n →
       x.accumulate = { x with clock := { x.clock with acc := x.clock.acc + r.d } }) ∧
     (r.n ≤ x.clock.acc + r.d → exec .secondTick x = .next { x.accumulate with out := [] })) ∧
  ∀ (s : State) (parity : Bool) (order : List FieldTok) (n : Fin 4), s.OnAir →
    (∀ e ∈ s.quotes, e.2.pend = none) → Store.wf Style.builtIn s.styles.cur = true →
    (∀ k, k < 32 → s.pendingStyle k = s.style k) →
    (∀ r ∈ s.conf.rate, s.clock.acc + r.d < r.n) →
    let start : LaneWork := { step := 0, begun := false, counted := false, noted := 0 }
    let done := ((List.range 11).foldl (fun x _ => x.1.laneStep n x.2) (s, start)).1
    ∃ t : State, exec (.fieldStart parity order) s = .next t ∧ t.lane n = done.lane n ∧
      t.rep.events.getLsbD (2 + n.val) = done.rep.events.getLsbD (2 + n.val) ∧
      t.rep.events.getLsbD (6 + n.val) = done.rep.events.getLsbD (6 + n.val)

/-- R95, R131, R161, R163, R165: a field start outside ACTIVE. That the frame line register and the taken
flag are cleared there too is the model's choice (notes/assumptions/15.md). -/
def Obligations.FieldStartOutsideActive : Prop :=
  ∀ (s : State) (parity : Bool) (order : List FieldTok), s.pins.resetN = true → s.device ≠ .active →
    exec (.fieldStart parity order) s = .next
      { s with
        out := [], parity := parity, pins := { s.pins with parity := parity }
        rep := { s.rep with count := s.rep.count + 1, taken := false }
        cue := { s.cue with lineReg := none } }

/-- R8, R54, R95, R122, R124, R157, R161, R163: a field start in ACTIVE, in every order of the blocks'
shares. It counts one field, samples PARITY, clears the taken flag and the line register, sets event bits
and clears none, and leaves the stores, the configuration, the intake, the ports, the pending styles and
the cue inputs as they were. The orders it quantifies over are notes/assumptions/3.md. -/
def Obligations.FieldStartFrame : Prop :=
  ∀ (s : State) (parity : Bool) (order : List FieldTok), s.OnAir →
    ∃ t : State, exec (.fieldStart parity order) s = .next t ∧
      t.rep.count = s.rep.count + 1 ∧ t.rep.taken = false ∧ t.parity = parity ∧
      t.cue.lineReg = none ∧
      (∀ b : Fin 19, s.rep.events.getLsbD b.val = true → t.rep.events.getLsbD b.val = true) ∧
      (∀ k, (t.quote k).asm = (s.quote k).asm) ∧
      (∀ k, (s.quote k).pend = none → t.quote k = s.quote k) ∧
      t = { s with
            out := [], parity := parity, pins := { s.pins with parity := parity }
            lanes := t.lanes, quotes := t.quotes, clock := t.clock, schedule := t.schedule
            styles := { s.styles with cur := t.styles.cur }
            cue := { s.cue with lineReg := none, out0 := t.cue.out0, out1 := t.cue.out1 }
            rep := { s.rep with events := t.rep.events, count := s.rep.count + 1, taken := false } }

/-- R19, R89: a KILLED lane is frozen at every field start, in every order of the blocks' shares: its
offset, counters, fade level, ring and placed run stay, and so does the level of each envelope. The
orders it quantifies over are notes/assumptions/3.md. -/
def Obligations.KilledLaneFrozen : Prop :=
  ∀ (s t : State) (parity : Bool) (order : List FieldTok) (n : Fin 4), s.OnAir →
    (s.lane n).state = .killed → exec (.fieldStart parity order) s = .next t →
    let l := s.lane n
    let l' := t.lane n
    l'.state = .killed ∧ l'.offset = l.offset ∧ l'.passCount = l.passCount ∧
    l'.dwellCount = l.dwellCount ∧ l'.fade = l.fade ∧ l'.ring = l.ring ∧ l'.resume = l.resume ∧
    l'.motionOn = l.motionOn ∧
    l'.placed.map (fun p => (p.start, p.width, p.style, p.lastEdge, p.noRepeat, p.env.level)) =
      l.placed.map (fun p => (p.start, p.width, p.style, p.lastEdge, p.noRepeat, p.env.level))

/-- R124, R128, R129: a second tick. acc plus D reaches N: N is subtracted, and the time of day advances by
one second of the day. The armed entries whose time is the new time fire in entry-number order, each on the
lanes of its mask, ascending; a lane that refuses sets ACTION_REFUSED, SET_STYLE is taken by every lane, a
ONCE entry is disarmed and ALARM is set. Nothing else changes. That the tick can be a step of its own is
the model's choice (notes/assumptions/11.md). -/
def Obligations.SecondTickAdvances : Prop :=
  ∀ (s : State) (r : FieldRate), s.OnAir → s.conf.rate = some r → r.n ≤ s.clock.acc + r.d →
    s.clock.time.valid = true → Store.wf SchedEntry.initial s.schedule = true →
    let value := fun b : Byte => 10 * (b.toNat / 16) + b.toNat % 16
    let day := fun t : TimeOfDay => 3600 * value t.hours + 60 * value t.minutes + value t.seconds
    ∃ t : State, exec .secondTick s = .next t ∧
      t.clock.acc = s.clock.acc + r.d - r.n ∧ t.clock.time.valid = true ∧
      day t.clock.time = (day s.clock.time + 1) % 86400 ∧
      let due := fun i : Nat =>
        i < 16 ∧ (s.schedEntry i).armed = true ∧ (s.schedEntry i).time = t.clock.time
      ((¬ ∃ i, due i) → t = { s with out := [], clock := t.clock }) ∧
      ((∃ i, due i) → t.rep.events.getLsbD 15 = true) ∧
      (∀ i, t.schedEntry i =
        if due i ∧ (s.schedEntry i).daily = false then { s.schedEntry i with armed := false }
        else s.schedEntry i) ∧
      let act := fun (e : SchedEntry) (x : State) => match e.action with
        | .lane a =>
          let go := fun (y : State × Bool) (m : Fin 4) =>
            if e.mask.getLsbD m.val then ((y.1.actOnLane a m).1, y.2 || (y.1.actOnLane a m).2.isSome)
            else y
          let y := go (go (go (go (x, false) 0) 1) 2) 3
          if y.2 = true then y.1.raise .actionRefused else y.1
        | .setStyle =>
          let go := fun (y : State) (m : Fin 4) =>
            if e.mask.getLsbD m.val then
              let l := y.lane m
              y.setLane m (
                if l.state = .off then { l with form := { l.form with style := e.arg } }
                else match l.pendForm with
                  | some f => { l with pendForm := some { f with style := e.arg } }
                  | none => { l with pendForm := some { l.form with style := e.arg } })
            else y
          go (go (go (go x 0) 1) 2) 3
      let fire := fun (x : State) (i : Nat) =>
        let e := s.schedEntry i
        if e.armed = true ∧ e.time = t.clock.time then
          act e (if e.daily = true then x else x.setSchedEntry i { e with armed := false })
        else x
      let fired := (List.range 16).foldl fire { s with out := [], clock := t.clock }
      (∃ i, due i) → t = fired.raise .alarm

/-- R31, R32, R33, R42, R43: a marker's retirement that reaches the pass limit resets the counter and drains
the lane, or turns the resume target of a held one. On a CRAWL lane the marker lies left of the left edge;
on a FLIP lane the page is counted and reaches the dwell, and a page that is not counted stays up. The step
of its own is the model's choice (notes/assumptions/11.md). -/
def Obligations.PassLimitReached : Prop :=
  ∀ (s : State) (n : Fin 4) (i : Nat) (ring : List Nat) (p : Placement) (placed : List Placement),
    s.OnAir →
    let l := s.lane n
    l.ring = i :: ring → l.placed = p :: placed →
    (l.state = .running ∨ l.state = .held ∨ l.state = .draining ∨ l.state = .fadingOut) →
    (s.item i).marker = true →
    l.motion.passLimit ≠ 0 → l.motion.passLimit ≤ 255 → l.motion.passLimit ≤ l.passCount + 1 →
    let stays := (s.item i).repeats = true ∧ p.noRepeat = false
    let l1 : Lane :=
      { l with
        state := if l.state = .running then .draining else l.state
        resume := if l.state = .held then .draining else l.resume
        passCount := 0, placed := placed, ring := if stays then ring ++ [i] else ring }
    let ends := fun s1 : State => if ¬ stays ∧ ring = [] then s1.raise (.laneEmpty n) else s1
    let counts := (l.state = .running ∨ l.state = .draining ∨
        (l.state = .fadingOut ∧ l.motionOn = true)) ∧
      l.motion.dwell ≤ (if l.dwellCount < 65535 then l.dwellCount + 1 else 65535)
    (l.form.kind = .crawl → p.start + p.width ≤ ((l.offset / 256 : Nat) : Int) →
      exec (.passLimitReached n) s = .next (ends (s.quiet.setLane n l1))) ∧
    (l.form.kind = .flip → counts →
      exec (.passLimitReached n) s = .next (ends (s.quiet.setLane n { l1 with dwellCount := 0 }))) ∧
    (l.form.kind = .flip → ¬ counts → exec (.passLimitReached n) s = .next s.quiet)

/-- R36, R37, R42 to R44: the end of a FLIP page. Where a moving lane counts its page and the count reaches
the dwell, PAGE_END is the dwell count, page end and place steps of the lane's work one after another, for
every page and ring; a page short of its dwell, held or frozen stays. A draining lane's page retires and no
other is placed; a running lane whose ring holds one repeating item that is not skipped places it again with
a new width, and its cue-out action is handed over. The step of its own is the model's choice
(notes/assumptions/11.md). -/
def Obligations.PageEnds : Prop :=
  (∀ (s : State) (n : Fin 4), s.OnAir →
    let l := s.lane n
    let work := fun (k : Nat) (w : LaneWork) => { w with step := k }
    let due := l.form.kind = .flip ∧ l.placed ≠ [] ∧
      (l.state = .running ∨ l.state = .draining ∨ (l.state = .fadingOut ∧ l.motionOn = true)) ∧
      l.motion.dwell ≤ (if l.dwellCount < 65535 then l.dwellCount + 1 else 65535)
    let counted := State.laneStep { s with out := [] } n
      { step := 2, begun := false, counted := false, noted := 0 }
    let ended := counted.1.laneStep n (work 4 counted.2)
    (due → exec (.pageEnd n) s = .next (ended.1.laneStep n (work 6 ended.2)).1) ∧
    (¬ due → exec (.pageEnd n) s = .next { s with out := [] })) ∧
  ∀ (s : State) (n : Fin 4) (i : Nat) (p : Placement), s.OnAir →
    let l := s.lane n
    l.form.kind = .flip → l.ring = [i] → l.placed = [p] → (s.item i).repeats = true →
    p.noRepeat = false → (s.item i).marker = false →
    l.motion.dwell ≤ (if l.dwellCount < 65535 then l.dwellCount + 1 else 65535) →
    (l.state = .draining →
      exec (.pageEnd n) s = .next (s.quiet.setLane n { l with placed := [], dwellCount := 0 })) ∧
    (l.state = .running → s.skips (s.item i) = false →
      exec (.pageEnd n) s = .next (
        ({ s.quiet with cue := s.cue.apply (s.item i).cueOut }).setLane n
          { l with
            dwellCount := 0
            placed :=
              let k := (s.item i).override.getD l.form.style
              [{ start := 0, width := s.sourceWidth (s.style k) (s.item i).source, style := k
                 env := { phase := .idle, level := 0, direction := .up, hold := 0 }
                 lastEdge := ((l.form.right - l.form.left + 1 : Nat) : Int), noRepeat := false }] }))

/-- R16, R17, R87: a hold that runs out moves its envelope to RELEASE at the level standing; a fade-out
whose step reaches 0 takes the lane to OFF, with LANE_OFF, its ring and parameters kept. The steps of
their own are the model's choice (notes/assumptions/11.md). -/
def Obligations.HoldAndFadeEnd : Prop :=
  (∀ (s : State) (n : Fin 4) (k : Nat) (p : Placement), s.OnAir →
    (s.lane n).placed[k]? = some p →
    ((s.lane n).state = .running ∨ (s.lane n).state = .held ∨ (s.lane n).state = .draining ∨
      (s.lane n).state = .fadingOut) →
    (p.env.phase = .attack ∨ p.env.phase = .decay ∨ p.env.phase = .sustain) → p.env.hold ≤ 1 →
    exec (.holdExpiry n k) s = .next (s.quiet.setLane n { s.lane n with
      placed := (s.lane n).placed.set k
        { p with env := { p.env with phase := .release, hold := 0 } } })) ∧
  ∀ (s : State) (n : Fin 4), s.OnAir →
    let l := s.lane n
    l.state = .fadingOut →
    (l.motion.fade = 0 ∨ l.fade ≤ (256 + l.motion.fade - 1) / l.motion.fade) →
    exec (.fadeOutEnd n) s = .next ((s.quiet.setLane n
      { l with state := .off, placed := [], offset := 0, fade := 0, passCount := 0, dwellCount := 0
               resume := .running, motionOn := true, pendForm := none, pendMotion := none
               takeMark := false }).raise (.laneOff n))

/-- R82 to R87: the highlight envelope: the steps of the rate indices, a trigger, a release, and one step
with its hold countdown. -/
def Obligations.EnvelopeRules : Prop :=
  ∀ (e : Envelope) (k : Style) (d : Direction), e.level ≤ 65280 → k.flash.sustain ≤ 15 →
    let hold := if k.flash.hold = 0 then 1 else k.flash.hold
    let lit := fun p : Phase => p = .attack ∨ p = .decay ∨ p = .sustain
    (∀ i, i < 16 →
      attackStep i = [65280, 32640, 21760, 16320, 10880, 8160, 6528, 5440, 4352, 3264, 2176, 1451, 1088,
        726, 436, 272].getD i 0 ∧
      decayStep i = [65280, 21760, 10880, 7254, 5440, 4352, 3264, 2612, 2176, 1451, 726, 436, 363, 218,
        146, 73].getD i 0) ∧
    e.trigger k d = { phase := .attack, level := e.level, direction := d, hold := hold } ∧
    (lit e.phase → e.letGo = { e with phase := .release, hold := 0 }) ∧
    (¬ lit e.phase → e.letGo = e) ∧
    let target := k.flash.sustain * 4352
    let up := e.level + attackStep k.flash.attack
    let low := e.level - decayStep k.flash.decay
    let out := e.level - decayStep k.flash.release
    let stood : Envelope :=
      match e.phase with
      | .idle | .sustain => e
      | .attack =>
        if 65280 ≤ up then { e with level := 65280, phase := .decay } else { e with level := up }
      | .decay =>
        if e.level ≤ target then { e with phase := .sustain }
        else if low ≤ target then { e with level := target, phase := .sustain }
        else { e with level := low }
      | .release => if out = 0 then { e with level := 0, phase := .idle } else { e with level := out }
    e.step k =
      (if lit stood.phase then
        if stood.hold ≤ 1 then { stood with phase := .release, hold := 0 }
        else { stood with hold := stood.hold - 1 }
      else stood) ∧
    (e.step k).level ≤ 65280

/-- R54 to R58: one transfer check of a slot. When every placed entry that references the slot has room,
the pending value is shown and the entries are struck by its status and tick; otherwise nothing
changes. -/
def Obligations.TransferCheck : Prop :=
  ∀ (s : State) (k : Nat) (v : QuoteValue), Store.wf QuoteSlot.initial s.quotes = true →
    (s.quote k).pend = some v →
    let refers := fun x : Nat × Placement => (s.item x.1).source = .quote k
    let fits := ∀ (m : Fin 4), ∀ x ∈ (s.lane m).entries, refers x →
      s.quoteWidth (s.style x.2.style) v ≤ x.2.width
    (¬ fits → s.checkSlot k = s) ∧
    (fits → ∃ t : State, s.checkSlot k = t ∧
      t = { s with quotes := t.quotes, lanes := t.lanes } ∧
      t.quote k = { s.quote k with pend := none, shown := some v } ∧
      (∀ j, j ≠ k → t.quote j = s.quote j) ∧
      ∀ m : Fin 4, t.lane m = { s.lane m with placed := (t.lane m).placed } ∧
        (t.lane m).placed.length = (s.lane m).placed.length ∧
        ∀ (j i : Nat) (p : Placement), (s.lane m).ring[j]? = some i → (s.lane m).placed[j]? = some p →
          (t.lane m).placed[j]? = some (
            if refers (i, p) then
              { p with env :=
                match v.status, (s.quote k).shown with
                | .normal, some o =>
                  if o.price < v.price then p.env.trigger (s.style p.style) .up
                  else if v.price < o.price then p.env.trigger (s.style p.style) .down
                  else p.env
                | .normal, none => p.env
                | .halted, _ | .closed, _ => p.env.letGo }
            else p))

/-! ### The pins and the loader -/

/-- R18, R137: KILL_N falls: the latch is set, the lanes are cut, both cue outputs go low and BREAK_IN is
set; with the latch set already only BREAK_IN is set. KILL_N rises: the latch stays. -/
def Obligations.KillLatch : Prop :=
  (∀ s : State, s.pins.resetN = true → s.pins.killN = true →
    let cut := fun l : Lane =>
      match l.state with
      | .off | .killed => l
      | .armed =>
        { l with state := .off, placed := [], offset := 0, fade := 0, passCount := 0, dwellCount := 0
                 resume := .running, motionOn := true, pendForm := none, pendMotion := none
                 takeMark := false }
      | .running | .held | .draining | .fadingOut => { l with state := .killed }
    let s1 := State.raise { s with out := [], pins := { s.pins with killN := false } } .breakIn
    exec .killLatchSet s = .next (
      if s.cue.latch = true then s1
      else
        { s1 with
          cue := { s.cue with latch := true, out0 := false, out1 := false }
          lanes := ⟨cut s.lanes.e0, cut s.lanes.e1, cut s.lanes.e2, cut s.lanes.e3⟩ })) ∧
  ∀ s : State, exec .killNRise s = .next { s with out := [], pins := { s.pins with killN := true } }

/-- R137, R165, R166, R167: RESET_N rises: the anchor and the flow mode come from the straps, the stall
limit is 20 microseconds, the part enters LOADING, and with KILL_N low the kill latch is set. The loader
then starts at the first byte it has not received when the bus is free, and waits for the bus when
another master wins arbitration. -/
def Obligations.ResetAndBusEvents : Prop :=
  (∀ (s : State) (straps : Straps) (killN : Bool), s.pins.resetN = false →
    (∀ n, (s.lane n).state = .off) →
    exec (.resetRelease straps killN) s = .next
      { s with
        out := []
        pins := { s.pins with resetN := true, killN := killN, straps := straps }
        device := .loading
        loader := { status := .loading, reason := none, bus := .waiting, staging := [] }
        conf := { s.conf with
          anchor := BitVec.ofNat 32 (0x40000000 + straps.anchorSel.toNat * 0x01000000)
          flow := if straps.flowSel then .pass else .hold
          stall := 20 }
        cue := if killN then s.cue else { s.cue with latch := true, out0 := false, out1 := false }
        rep := if killN then s.rep else { s.rep with events := s.rep.events ||| 0x400 } }) ∧
  ∀ s : State,
    (s.loader.bus = .waiting →
      exec .busFreeStart s = .next
        { s with out := [.i2cStart s.loader.staging.length]
                 loader := { s.loader with bus := .addressing } }) ∧
    (s.loader.bus = .addressing ∨ s.loader.bus = .reading →
      exec .arbitrationLost s = .next
        { s with out := [.i2cRelease], loader := { s.loader with bus := .waiting } })

/-- R149, R150, R164, R167, R168, R169: a load that fails, by a missing acknowledge, a time limit or a byte
that shows the image wrong. What the configuration gave is absent, the straps give the anchor and the flow
mode, LOAD_FAIL and its mask bit are set, so that ATTN is high, and the completion report is taken. A RELOAD
that waits at the head of the queue completes with the reason. That the report is taken before that
completion is notes/assumptions/13.md. -/
def Obligations.LoadFails : Prop :=
  ∀ (s : State) (i : Instr) (straps : Straps) (why : LoadReason),
    ((i = .noDevice straps ∧ why = .noDevice ∧ s.loader.bus = .addressing) ∨
     (i = .busTimeout straps ∧ why = .busTimeout ∧ s.loader.bus ≠ .idle) ∨
     (∃ b : Byte, i = .imageByteReceived b straps ∧
       (s.loader.bus = .addressing ∨ s.loader.bus = .reading) ∧
       scanImage (s.loader.staging ++ [b]) = .fail why)) →
    ∃ t : State, t.device = .unconfigured ∧ t.attn = true ∧
      t.out = (if s.loader.bus = .waiting then [.i2cRelease] else [.i2cStop, .i2cRelease]) ∧
      t.loader = { status := .failed, reason := some why, bus := .idle, staging := [] } ∧
      t.conf =
        { anchor := BitVec.ofNat 32 (0x40000000 + straps.anchorSel.toNat * 0x01000000)
          flow := if straps.flowSel then .pass else .hold
          stall := 20, decode := none, rate := none, reportLine := none } ∧
      (∀ n : Fin 4, t.fonts.get n = Font.absent) ∧
      t.rep =
        { s.rep with events := s.rep.events ||| 0x40000, mask := s.rep.mask ||| 0x40000, taken := true } ∧
      t.own = { s.own with reports := s.own.reports ++
        [{ anchor := t.conf.anchor, next := 0, words := t.reportWords
           ahead := s.own.writeBack.length }] } ∧
      t = { s with
            out := t.out, pins := { s.pins with straps := straps }, device := .unconfigured
            loader := t.loader, conf := t.conf, fonts := t.fonts, rep := t.rep, own := t.own } ∧
      (s.intake.reload = none → exec i s = .next t) ∧
      ∀ (e : IntakeEntry) (rest : List IntakeEntry), s.intake.reload ≠ none →
        s.intake.queue = e :: rest →
        exec i s = .next (
          ({ t with intake := { s.intake with reload := none } }).complete e (match why with
            | .blank => .blank
            | .noDevice => .noDevice
            | .busTimeout => .busTimeout
            | .imageOverrun => .imageOverrun
            | .format => .format))

/-- R119, R123, R149, R150, R164, R168, R169: a byte of the image is kept in the staging copy and changes
nothing else while more are called for. With the byte that completes a sound image the load succeeds: the
part is ACTIVE under the image's configuration, acc is 0, the current, pending and default copies of every
style are the image's, or the built-in style where it gives none, LOAD_DONE is set and the completion
report is taken. A RELOAD that waits at the head of the queue completes with OK. That the report is taken
before that completion is notes/assumptions/13.md. -/
def Obligations.ImageBytes : Prop :=
  ∀ (s : State) (b : Byte) (straps : Straps),
    (s.loader.bus = .addressing ∨ s.loader.bus = .reading) →
    let bytes := s.loader.staging ++ [b]
    (scanImage bytes = .more →
      exec (.imageByteReceived b straps) s = .next
        { s with out := [], pins := { s.pins with straps := straps }
                 loader := { s.loader with bus := .reading, staging := bytes } }) ∧
    ∀ (i : Image) (c : ImageConfig), scanImage bytes = .done i → i.config = some c →
      ∃ t : State, t.device = .active ∧
        t.out = [.i2cStop, .i2cRelease] ∧
        t.loader = { status := .done, reason := none, bus := .idle, staging := [] } ∧
        t.conf =
          { anchor := match c.anchor with
              | some a => a
              | none => BitVec.ofNat 32 (0x40000000 + straps.anchorSel.toNat * 0x01000000)
            flow := match c.flow with
              | some f => f
              | none => if straps.flowSel then .pass else .hold
            stall := match c.stall with
              | some v => v
              | none => 20
            decode := some c.decode, rate := some c.rate, reportLine := some c.reportLine } ∧
        t.clock = { s.clock with acc := 0 } ∧
        (∀ n : Fin 4, t.fonts.get n = match i.fonts.get n with
          | some f => f
          | none => Font.absent) ∧
        (∀ k, t.style k = (match (i.styles.getD []).reverse.find? fun e => e.1 == k with
            | some e => e.2
            | none => Style.builtIn) ∧
          t.pendingStyle k = t.style k ∧ Store.get Style.builtIn t.styles.deflt k = t.style k) ∧
        t.rep = { s.rep with events := s.rep.events ||| 0x20000, taken := true } ∧
        t.own = { s.own with reports := s.own.reports ++
          [{ anchor := t.conf.anchor, next := 0, words := t.reportWords
             ahead := s.own.writeBack.length }] } ∧
        t = { s with
              out := t.out, pins := { s.pins with straps := straps }, device := .active
              loader := t.loader, conf := t.conf, clock := t.clock, fonts := t.fonts
              styles := t.styles, rep := t.rep, own := t.own } ∧
        (s.intake.reload = none → exec (.imageByteReceived b straps) s = .next t) ∧
        ∀ (e : IntakeEntry) (rest : List IntakeEntry), s.intake.reload ≠ none →
          s.intake.queue = e :: rest →
          exec (.imageByteReceived b straps) s = .next (
            ({ t with intake := { s.intake with reload := none } }).complete e .ok)

/-- R168, 12.6: the header of an image and the headers of its sections, by the bytes received. A missing
mark is BLANK; a length past the device is IMAGE_OVERRUN, before any other fault of that length. A type
that is unknown or given twice is FORMAT, and so is a header whose bytes leave the section no length that
its type takes, within the image, with the rest of the image room for exactly the sections that must or may
follow: the END of 4 bytes that ends it, the CONFIG of 40 where it is still to come, a STYLE of 4 and 48 for
each record, a font of 8, 12 or at least 16. So each check fails at the first byte that shows it, as
notes/assumptions/14.md reads that; that an END ends the image is its choice too. -/
def Obligations.ImageSections : Prop :=
  let ends := fun (config style font : Bool) (room : Nat) =>
    let least := if config = true then 44 else 4
    ∃ more : Nat, room = least + more ∧
      (more = 0 ∨ (style = true ∧ more % 48 = 4 ∧ more ≤ 1540) ∨
        (font = true ∧ (more = 8 ∨ more = 12 ∨ 16 ≤ more)))
  scanImage [] = .more ∧ scanImage [0xC3] = .more ∧
  (∀ b : Byte, scanImage [0xC3, 0x5A] = .more ∧ scanImage [0xC3, 0x5A, b] = .more) ∧
  (∀ (a b : Byte) (bs : List Byte), (a ≠ 0xC3 → scanImage (a :: bs) = .fail .blank) ∧
    (b ≠ 0x5A → scanImage (0xC3 :: b :: bs) = .fail .blank)) ∧
  (∀ (lo hi : Byte) (bs : List Byte),
    let total := 4 + lo.toNat + 256 * hi.toNat
    let scan := scanImage (0xC3 :: 0x5A :: lo :: hi :: bs)
    (65536 < total → scan = .fail .imageOverrun) ∧
    (total ≤ 65536 → ¬ ends true true true (total - 4) → scan = .fail .format) ∧
    (total ≤ 65536 → ends true true true (total - 4) →
      scan = scanSections total total 4
        { config := none, styles := none, fonts := ⟨none, none, none, none⟩ } bs)) ∧
  (∀ (total fuel off : Nat) (i : Image) (bs : List Byte),
    let byte := fun k : Nat => (bs.getD k 0).toNat
    let type := byte 0
    let len := byte 2 + 256 * byte 3
    let stop := off + 4 + len
    let known := (type = 0x01 ∧ i.config = none) ∨ (type = 0x02 ∧ i.styles = none) ∨
      (∃ n : Fin 4, type = 0x10 + n.val ∧ i.fonts.get n = none) ∨ type = 0xFF
    let takes := fun x : Nat =>
      off + 4 + x ≤ total ∧
      let room := total - (off + 4 + x)
      let config := i.config.isNone
      let style := i.styles.isNone
      let font := decide (∃ m : Fin 4, type ≠ 0x10 + m.val ∧ i.fonts.get m = none)
      (type = 0x01 → x = 36 ∧ ends false style font room) ∧
      (type = 0x02 → x % 48 = 0 ∧ x ≤ 1536 ∧ ends config false font room) ∧
      (0x10 ≤ type → type < 0x14 → (x = 4 ∨ x = 8 ∨ 12 ≤ x) ∧ ends config style font room) ∧
      (type = 0xFF → x = 0 ∧ config = false ∧ room = 0)
    let fits := ∃ x : Nat, x < 65536 ∧ takes x ∧ (3 ≤ bs.length → x % 256 = byte 2) ∧
      (4 ≤ bs.length → x / 256 = byte 3)
    let scan := scanSections total (fuel + 1) off i bs
    (bs = [] → scan = .more) ∧
    (bs ≠ [] → ¬ known → scan = .fail .format) ∧
    (bs ≠ [] → known → (65536 < stop → scan = .fail .imageOverrun) ∧
      (stop ≤ 65536 → ¬ fits → scan = .fail .format) ∧
      (stop ≤ 65536 → fits →
        (bs.length < 4 → scan = .more) ∧
        (4 ≤ bs.length →
          let bytes := (bs.drop 4).take len
          let rest := bs.drop (4 + len)
          (type = 0xFF → scan = .done i) ∧
          (type = 0x01 → scan = match scanConfig bytes with
            | .fail r => .fail r
            | .more => .more
            | .done c => scanSections total fuel stop { i with config := some c } rest) ∧
          (type = 0x02 → scan = match scanStyles (len / 48) [] bytes with
            | .fail r => .fail r
            | .more => .more
            | .done ss => scanSections total fuel stop { i with styles := some ss } rest) ∧
          ∀ n : Fin 4, type = 0x10 + n.val → scan = match scanFont len bytes with
            | .fail r => .fail r
            | .more => .more
            | .done f =>
              let i' : Image := { i with fonts := i.fonts.set n (some f) }
              let stored : Fin 4 → Nat := fun m => match i'.fonts.get m with
                | none => 0
                | some g => (g.glyphs.map fun e => e.2.nibbles.length).sum
              if 1048576 < stored 0 + stored 1 + stored 2 + stored 3 then .fail .format
              else scanSections total fuel stop i' rest)))) ∧
  ∀ (bs : List Byte) (i : Image), scanImage bs = .done i → i.config ≠ none

/-- R92, R118, R119, R168, R174, 12.6: the bodies of the sections, by the bytes received: the ranges of
CONFIG and what it gives; a style record, its ranges and its fields; the header of a font, and a glyph
record, its bitmap cut to the advance, with a glyph 0x00 put where none is defined. In a range or a bound a
field counts as the least value that its received bytes leave it, and glyph records fail with the byte after
which no widths of those to come fill the body: the first byte that shows it, as notes/assumptions/14.md
reads that. -/
def Obligations.ImageBodies : Prop :=
  ∀ bs : List Byte,
    let has := fun k : Nat => k ≤ bs.length
    let u8 := fun k : Nat => (bs.getD k 0).toNat
    let u16 := fun k : Nat => u8 k + 256 * u8 (k + 1)
    let u32 := fun k : Nat => u16 k + 65536 * u16 (k + 2)
    let word := fun k : Nat => BitVec.ofNat 32 (u32 k)
    let flag := fun (k j : Nat) => (bs.getD k 0).getLsbD j
    let least := fun (v k n lo : Nat) =>
      let unit := 256 ^ min n (bs.length - k)
      if lo ≤ v then v else v + (lo - v + (unit - 1)) / unit * unit
    let pitch := least (u32 16) 16 4 256
    let width := least (u16 20) 20 2 64
    let lines := least (u16 22) 22 2 64
    let rate := least (u16 24) 24 2 1
    (bs.length ≤ 36 → scanConfig bs =
      if 7 < u32 0 ∨ (flag 0 0 = true ∧ u32 4 % 65536 ≠ 0) ∨
          u32 8 % 64 ≠ 0 ∨ u32 12 % 64 ≠ 0 ∨ u32 16 % 64 ≠ 0 ∨
          4096 < width ∨ pitch < 4 * width ∨ 2200 < lines ∨
          4294967296 < u32 8 + lines * pitch ∨ 4294967296 < u32 12 + lines * pitch ∨
          65535 < rate ∨ rate < least (u16 26) 26 2 1 ∨ lines ≤ u16 28 ∨ 1 < u8 30 ∨
          (flag 0 1 = true ∧ 1 < u8 31) ∨ (flag 0 2 = true ∧ has 33 ∧ u8 32 = 0) then .fail .format
      else if bs.length < 36 then .more
      else .done
        { anchor := if flag 0 0 then some (word 4) else none
          flow := if flag 0 1 then some (if u8 31 = 1 then .pass else .hold) else none
          stall := if flag 0 2 then some (u8 32) else none
          decode := { base0 := word 8, base1 := word 12, pitch := u32 16, width := u16 20
                      lines := u16 22, interlaced := u8 30 == 1 }
          rate := { n := u16 24, d := u16 26 }, reportLine := u16 28 }) ∧
    (∀ (n : Nat) (given : List (Nat × Style)),
      scanStyles 0 given bs = .done given ∧
      scanStyles (n + 1) given bs =
        if 31 < u8 0 ∨ (has 1 ∧ ∃ e ∈ given, e.1 = u8 0) ∨ 256 < u16 36 ∨ 3 < u8 38 ∨ 63 < u8 39 ∨
            1023 < u16 40 ∨ 15 < u8 43 ∨ 15 < u8 44 ∨ 15 < u8 45 ∨ 15 < u8 46 then .fail .format
        else if bs.length < 48 then .more
        else
          let color := fun k : Nat => colorOfWord (word k)
          let k : Style :=
            { colors := { fill := color 4, text := color 8, up := color 12, down := color 16
                          flat := color 20, halt := color 24 }
              flash := { flashUp := color 28, flashDown := color 32, alpha := u16 36
                         legalize := flag 42 3, attack := u8 43, decay := u8 44, release := u8 45
                         sustain := u8 46, hold := if u8 47 = 0 then 1 else u8 47 }
              width := { font := u8 38, pad := u8 39, minWidth := u16 40, separators := flag 42 0
                         percent := flag 42 1, seconds := flag 42 2 } }
          scanStyles n (given ++ [(u8 0, k)]) (bs.drop 48)) ∧
    let fill := fun (height n left : Nat) => ∃ ws : List Nat, ws.length = n ∧ (∀ w ∈ ws, w ≤ 255) ∧
      (ws.map fun w => 4 + (w * height + 1) / 2).sum = left
    (∀ len : Nat,
      let fits := ∃ n : Nat, n ≤ 256 ∧ fill (u8 0) n (len - 4) ∧ (has 3 → n % 256 = u8 2) ∧
        (has 4 → n / 256 = u8 3)
      let bad := (has 1 ∧ u8 0 < 8) ∨ 64 < u8 0 ∨ (has 2 ∧ u8 1 = 0) ∨ 64 < u8 1 ∨ (has 1 ∧ ¬ fits)
      (bad → scanFont len bs = .fail .format) ∧
      (¬ bad → bs.length < 4 → scanFont len bs = .more) ∧
      (¬ bad → 4 ≤ bs.length → scanFont len bs =
        match scanGlyphs (u8 0) (u8 1) (u16 2) (len - 4) [] [] (bs.drop 4) with
        | .fail r => .fail r
        | .more => .more
        | .done gs => .done
          { height := u8 0, defaultAdvance := u8 1
            glyphs :=
              if (Store.get Glyph.undefined gs 0).advance = 0 then
                Store.put Glyph.undefined gs 0 { advance := u8 0 / 2, width := 0, nibbles := [] }
              else gs })) ∧
    ∀ (height dflt n left : Nat) (seen : List Nat) (given : Store Glyph),
      scanGlyphs height dflt 0 left seen given bs = (if left = 0 then .done given else .fail .format) ∧
      let scan := scanGlyphs height dflt (n + 1) left seen given bs
      let bad := (has 1 ∧ u8 0 ∈ seen) ∨ (has 2 ∧ 64 < u8 1 ∧ u8 1 ≠ 255)
      let len := 4 + (u8 2 * height + 1) / 2
      let unfit := left < len ∨ ¬ fill height n (left - len)
      (bad → scan = .fail .format) ∧
      (¬ bad → bs.length < 3 → scan = .more) ∧
      (¬ bad → 3 ≤ bs.length → unfit → scan = .fail .format) ∧
      (¬ bad → 3 ≤ bs.length → ¬ unfit → bs.length < len → scan = .more) ∧
      (¬ bad → 3 ≤ bs.length → ¬ unfit → len ≤ bs.length → ∃ g : Glyph,
        g.advance = (if u8 1 = 255 then dflt else u8 1) ∧
        g.width = (if u8 2 < g.advance then u8 2 else g.advance) ∧
        g.nibbles.length = height * g.width ∧
        (∀ row col, row < height → col < g.width →
          let k := row * u8 2 + col
          (g.nibbles.getD (row * g.width + col) 0).toNat =
            if k % 2 = 0 then u8 (4 + k / 2) % 16 else u8 (4 + k / 2) / 16) ∧
        scan = scanGlyphs height dflt n (left - len) (u8 0 :: seen)
          (if g.advance = 0 then given else Store.put Glyph.undefined given (u8 0) g) (bs.drop len))

/-! ### What every step keeps -/

/-- R6, R7, R9, R17: no two lanes outside OFF hold forms, current or pending, that share a frame line. -/
def Obligations.LinesLawKept : Prop :=
  ∀ s t : State, s.LinesLaw → step s = .next t → t.LinesLaw

/-- R18, R136, R137, R165, R166: while the kill latch is set both cue outputs are low and every lane is OFF
or KILLED, and KILL_N low means the latch set; outside ACTIVE every lane is OFF, nothing is placed and no
pending flag is set. The clause of `State.DeviceLaw` that with RESET_N low the device is in LOADING and the
loader idle is the model's choice (notes/assumptions/9.md and 10.md). -/
def Obligations.KillAndDeviceLawsKept : Prop :=
  ∀ s t : State, s.KillLaw → s.DeviceLaw → step s = .next t → t.KillLaw ∧ t.DeviceLaw

/-- R1, R4, R16, R21, R22, R30, R41, R91, R175: every lane keeps the ranges of its state, and each placed
entry starts at or beyond the end of the one before it. -/
def Obligations.LaneLawKept : Prop :=
  ∀ s t : State, s.LaneLaw → step s = .next t → t.LaneLaw

/-- R22, R23, R111: an item stands in at most one ring and once in it, and every item of a ring is
defined. -/
def Obligations.RingLawKept : Prop :=
  ∀ s t : State, s.RingLaw → step s = .next t → t.RingLaw

/-- R53, R60: no placed quote entry ever renders a shown value wider than its frozen width, in every order
of the shares of a field start. -/
def Obligations.FitLawKept : Prop :=
  ∀ s t : State, s.FitLaw → s.LaneLaw → s.DeviceLaw → s.StoreLaw → step s = .next t → t.FitLaw

/-- R140, R143, R148, R150, R156: the intake and the write-back queue keep their depths, a slot is IN_FLIGHT
exactly while its command is queued; the numbered stores keep their canonical form. -/
def Obligations.IntakeAndStoreLawsKept : Prop :=
  ∀ s t : State, s.IntakeLaw → s.StoreLaw → step s = .next t → t.IntakeLaw ∧ t.StoreLaw

/-- R123, R124, R125, R168: the time of day stays a BCD time, and acc stays below N. -/
def Obligations.ClockLawKept : Prop :=
  ∀ s t : State, s.ClockLaw → step s = .next t → t.ClockLaw

end
end

