-- ==== Sys2Proof/Laws/Image.lean ====
section
/-! SUPPORT. What the checks of the image's scan ask of the bytes still to come: the least value of a
field, the values a 16-bit field can still take, the widths of glyph records, and the room of the
sections to come. -/

namespace Sys2Proof.Machine

/-! ### Fields -/

/-- The bytes received of a field give less than one more byte would be worth. -/
theorem leNat_lt (bs : List Byte) : leNat bs < 256 ^ bs.length := by
  induction bs with
  | nil => simp [leNat]
  | cons b bs ih =>
    have hb := b.isLt
    simp only [leNat, List.length_cons, pow_succ]
    omega

/-- `fieldLeast` is a value from `lo` on that ends in the bytes received, and the least one. -/
theorem fieldLeast_spec (bs : List Byte) (off n lo : Nat) :
    let unit := 256 ^ ((bs.drop off).take n).length
    lo ≤ fieldLeast bs off n lo ∧ fieldLeast bs off n lo % unit = fieldSoFar bs off n ∧
      ∀ x, lo ≤ x → x % unit = fieldSoFar bs off n → fieldLeast bs off n lo ≤ x := by
  intro unit
  have hv : fieldSoFar bs off n < unit := leNat_lt _
  have hu : 0 < unit := by positivity
  obtain ⟨q, r, hq, hr⟩ : ∃ q r, lo - fieldSoFar bs off n + (unit - 1) = unit * q + r ∧ r < unit :=
    ⟨_, _, (Nat.div_add_mod _ unit).symm, Nat.mod_lt _ hu⟩
  have hl : fieldLeast bs off n lo = fieldSoFar bs off n + unit * q := by
    have hd : (lo - fieldSoFar bs off n + (unit - 1)) / unit = q := by
      rw [hq, Nat.mul_add_div hu, Nat.div_eq_of_lt hr, Nat.add_zero]
    show fieldSoFar bs off n + unit * ((lo - fieldSoFar bs off n + (unit - 1)) / unit) = _
    rw [hd]
  refine ⟨by omega, by rw [hl, Nat.add_mul_mod_self_left, Nat.mod_eq_of_lt hv], fun x hx hm => ?_⟩
  obtain ⟨k, hk⟩ : ∃ k, x = unit * k + fieldSoFar bs off n :=
    ⟨x / unit, by rw [← hm]; exact (Nat.div_add_mod x unit).symm⟩
  by_contra hlt
  have hkq : k + 1 ≤ q := by
    by_contra hkq
    have : unit * q ≤ unit * k := Nat.mul_le_mul_left _ (by omega)
    omega
  have : unit * k + unit ≤ unit * q := by
    calc unit * k + unit = unit * (k + 1) := by ring
      _ ≤ unit * q := Nat.mul_le_mul_left _ hkq
  omega

/-- The values a byte can still take. -/
theorem mem_byteChoices (bs : List Byte) (off v : Nat) :
    v ∈ byteChoices bs off ↔ v < 256 ∧ (off < bs.length → v = (bs.getD off 0).toNat) := by
  unfold byteChoices fieldWhole fieldSoFar
  by_cases h : off < bs.length
  · have hd : (bs.drop off).take 1 = [bs[off]] := by
      rw [List.drop_eq_getElem_cons h]; rfl
    have hb := bs[off].isLt
    simp [Nat.succ_le_of_lt h, hd, leNat, h]
    omega
  · simp [show ¬ off + 1 ≤ bs.length by omega, h]

/-- A 16-bit field can still take a value of a set where one agrees with the bytes received. -/
theorem fieldMay_iff (bs : List Byte) (off most : Nat) (ok : Nat → Bool)
    (hm : ∀ x, ok x = true → x ≤ most) :
    fieldMay bs off most ok = true ↔ ∃ x, x < 65536 ∧ ok x = true ∧
      (off < bs.length → x % 256 = (bs.getD off 0).toNat) ∧
      (off + 1 < bs.length → x / 256 = (bs.getD (off + 1) 0).toNat) := by
  simp only [fieldMay, List.any_eq_true, Bool.and_eq_true, decide_eq_true_eq, mem_byteChoices]
  constructor
  · rintro ⟨hi, ⟨hh, h1⟩, -, lo, ⟨hl, h0⟩, hok⟩
    refine ⟨lo + 256 * hi, by omega, hok, fun h => ?_, fun h => ?_⟩
    · have := h0 h; omega
    · have := h1 h; omega
  · rintro ⟨x, hx, hok, h0, h1⟩
    have := hm x hok
    refine ⟨x / 256, ⟨by omega, h1⟩, by omega, x % 256, ⟨by omega, h0⟩, ?_⟩
    rwa [Nat.mod_add_div]

/-! ### Glyph records -/

/-- The bytes of a bitmap of width `2 k + o`. -/
theorem bitmap_bytes (height k o : Nat) (ho : o ≤ 1) :
    ((2 * k + o) * height + 1) / 2 = height * k + o * ((height + 1) / 2) := by
  have h : (2 * k + o) * height = 2 * (height * k) + o * height := by ring
  rw [h]
  obtain rfl | rfl : o = 0 ∨ o = 1 := by omega
  all_goals omega

/-- What widths make of records: `n` widths of up to 255 hold some `k` pairs of columns, at most 127 for
each, and some number `o` of odd columns. -/
theorem widths_split (height : Nat) (ws : List Nat) (hw : ∀ w ∈ ws, w ≤ 255) :
    ∃ k o, o ≤ ws.length ∧ k ≤ 127 * ws.length ∧
      (ws.map fun w => 4 + (w * height + 1) / 2).sum =
        4 * ws.length + (height * k + o * ((height + 1) / 2)) := by
  induction ws with
  | nil => exact ⟨0, 0, by simp⟩
  | cons w ws ih =>
    obtain ⟨k, o, ho, hk, hs⟩ := ih fun x hx => hw x (List.mem_cons_of_mem _ hx)
    have hw' := hw w List.mem_cons_self
    have hb := bitmap_bytes height (w / 2) (w % 2) (by omega)
    rw [Nat.div_add_mod w 2] at hb
    refine ⟨k + w / 2, o + w % 2, by simp; omega, by simp; omega, ?_⟩
    simp only [List.map_cons, List.sum_cons, List.length_cons, hs, hb]
    ring

/-- Every such split is that of some widths. -/
theorem widths_of_split (height : Nat) : ∀ n k o, o ≤ n → k ≤ 127 * n →
    ∃ ws : List Nat, ws.length = n ∧ (∀ w ∈ ws, w ≤ 255) ∧
      (ws.map fun w => 4 + (w * height + 1) / 2).sum =
        4 * n + (height * k + o * ((height + 1) / 2))
  | 0, k, o, ho, hk => ⟨[], by simp, by simp, by simp [show k = 0 by omega, show o = 0 by omega]⟩
  | n + 1, k, o, ho, hk => by
    obtain ⟨k1, k2, hk', h1, h2⟩ : ∃ k1 k2, k = k1 + k2 ∧ k1 ≤ 127 ∧ k2 ≤ 127 * n :=
      ⟨min k 127, k - min k 127, by omega, by omega, by omega⟩
    obtain ⟨o1, o2, ho', h3, h4⟩ : ∃ o1 o2, o = o1 + o2 ∧ o1 ≤ 1 ∧ o2 ≤ n :=
      ⟨min o 1, o - min o 1, by omega, by omega, by omega⟩
    obtain ⟨ws, hl, hw, hs⟩ := widths_of_split height n k2 o2 h4 h2
    refine ⟨(2 * k1 + o1) :: ws, by simp [hl], ?_, ?_⟩
    · intro w hm
      rcases List.mem_cons.mp hm with rfl | hm
      · omega
      · exact hw w hm
    · simp only [List.map_cons, List.sum_cons, hs, bitmap_bytes height k1 o1 h3, hk', ho']
      ring

/-- `recordsFit` says that some widths of `n` glyph records fill the bytes left. -/
theorem recordsFit_iff (height n left : Nat) :
    recordsFit height n left = true ↔ ∃ ws : List Nat, ws.length = n ∧ (∀ w ∈ ws, w ≤ 255) ∧
      (ws.map fun w => 4 + (w * height + 1) / 2).sum = left := by
  simp only [recordsFit, Bool.and_eq_true, decide_eq_true_eq, List.any_eq_true, List.mem_range,
    beq_iff_eq]
  constructor
  · rintro ⟨hn, o, ho, ⟨hodd, hmod⟩, hdiv⟩
    obtain ⟨ws, hl, hw, hs⟩ := widths_of_split height n _ o (by omega) hdiv
    refine ⟨ws, hl, hw, ?_⟩
    have := Nat.div_add_mod (left - 4 * n - o * ((height + 1) / 2)) height
    rw [hs]
    omega
  · rintro ⟨ws, rfl, hw, hs⟩
    obtain ⟨k, o, ho, hk, he⟩ := widths_split height ws hw
    have hx : left - 4 * ws.length - o * ((height + 1) / 2) = height * k := by omega
    refine ⟨by omega, o, by omega, ⟨by omega, by rw [hx]; exact Nat.mul_mod_right _ _⟩, ?_⟩
    rw [hx]
    rcases Nat.eq_zero_or_pos height with rfl | hpos
    · simp
    · rwa [Nat.mul_div_cancel_left _ hpos]

/-! ### Sections -/

/-- The length of any font of a height of 8 and more is a `fontLength`. -/
theorem fontLength_of_recordsFit (height n len : Nat) (hh : 8 ≤ height)
    (hf : recordsFit height n len = true) : fontLength (4 + len) = true := by
  obtain ⟨ws, hl, hw, rfl⟩ := (recordsFit_iff height n len).mp hf
  simp only [fontLength, Bool.or_eq_true, beq_iff_eq, decide_eq_true_eq]
  match ws with
  | [] => simp
  | [w] =>
    rcases Nat.eq_zero_or_pos w with rfl | hp
    · simp
    · have : 8 ≤ w * height := by nlinarith
      simp only [List.map_cons, List.map_nil, List.sum_cons, List.sum_nil]
      omega
  | w :: v :: us =>
    simp only [List.map_cons, List.sum_cons]
    omega

/-- A length that fits a section ends it within the image. -/
theorem sectionFits_le (total off len : Nat) (i : Image) (kind : SectionKind)
    (h : sectionFits total off i kind len = true) : off + 4 + len ≤ total := by
  simp only [sectionFits, Bool.and_eq_true, decide_eq_true_eq] at h
  exact h.1

/-- `roomFits` by the bytes beyond the least. -/
theorem roomFits_iff (config style font : Bool) (room : Nat) :
    roomFits config style font room = true ↔
      ∃ more, room = (if config = true then 44 else 4) + more ∧
        (more = 0 ∨ (style = true ∧ more % 48 = 4 ∧ more ≤ 1540) ∨
          (font = true ∧ (more = 8 ∨ more = 12 ∨ 16 ≤ more))) := by
  simp only [roomFits, Bool.and_eq_true, Bool.or_eq_true, decide_eq_true_eq, beq_iff_eq]
  constructor
  · rintro ⟨hl, h⟩
    exact ⟨room - (if config = true then 44 else 4), by omega, by tauto⟩
  · rintro ⟨more, hr, h⟩
    have hm : room - (if config = true then 44 else 4) = more := by omega
    exact ⟨by omega, by rw [hm]; tauto⟩

end Sys2Proof.Machine
end

