-- ==== Sys2Proof/Laws/State.lean ====
section
/-! SUPPORT. One lemma for each field and each small update of the state: what the update leaves, and
what it sets. No proof need unfold a record update. -/

namespace Sys2Proof.Machine

variable (s : State)

/-! ### quiet -/

@[simp] theorem State.quiet_pending : s.quiet.pending = s.pending := rfl
@[simp] theorem State.quiet_pins : s.quiet.pins = s.pins := rfl
@[simp] theorem State.quiet_device : s.quiet.device = s.device := rfl
@[simp] theorem State.quiet_loader : s.quiet.loader = s.loader := rfl
@[simp] theorem State.quiet_conf : s.quiet.conf = s.conf := rfl
@[simp] theorem State.quiet_lanes : s.quiet.lanes = s.lanes := rfl
@[simp] theorem State.quiet_items : s.quiet.items = s.items := rfl
@[simp] theorem State.quiet_segments : s.quiet.segments = s.segments := rfl
@[simp] theorem State.quiet_fonts : s.quiet.fonts = s.fonts := rfl
@[simp] theorem State.quiet_styles : s.quiet.styles = s.styles := rfl
@[simp] theorem State.quiet_quotes : s.quiet.quotes = s.quotes := rfl
@[simp] theorem State.quiet_clock : s.quiet.clock = s.clock := rfl
@[simp] theorem State.quiet_schedule : s.quiet.schedule = s.schedule := rfl
@[simp] theorem State.quiet_cue : s.quiet.cue = s.cue := rfl
@[simp] theorem State.quiet_parity : s.quiet.parity = s.parity := rfl
@[simp] theorem State.quiet_intake : s.quiet.intake = s.intake := rfl
@[simp] theorem State.quiet_port : s.quiet.port = s.port := rfl
@[simp] theorem State.quiet_own : s.quiet.own = s.own := rfl
@[simp] theorem State.quiet_rep : s.quiet.rep = s.rep := rfl

/-! ### emit -/

@[simp] theorem State.emit_pending (e : PortEvent) : (s.emit e).pending = s.pending := rfl
@[simp] theorem State.emit_pins (e : PortEvent) : (s.emit e).pins = s.pins := rfl
@[simp] theorem State.emit_device (e : PortEvent) : (s.emit e).device = s.device := rfl
@[simp] theorem State.emit_loader (e : PortEvent) : (s.emit e).loader = s.loader := rfl
@[simp] theorem State.emit_conf (e : PortEvent) : (s.emit e).conf = s.conf := rfl
@[simp] theorem State.emit_lanes (e : PortEvent) : (s.emit e).lanes = s.lanes := rfl
@[simp] theorem State.emit_items (e : PortEvent) : (s.emit e).items = s.items := rfl
@[simp] theorem State.emit_segments (e : PortEvent) : (s.emit e).segments = s.segments := rfl
@[simp] theorem State.emit_fonts (e : PortEvent) : (s.emit e).fonts = s.fonts := rfl
@[simp] theorem State.emit_styles (e : PortEvent) : (s.emit e).styles = s.styles := rfl
@[simp] theorem State.emit_quotes (e : PortEvent) : (s.emit e).quotes = s.quotes := rfl
@[simp] theorem State.emit_clock (e : PortEvent) : (s.emit e).clock = s.clock := rfl
@[simp] theorem State.emit_schedule (e : PortEvent) : (s.emit e).schedule = s.schedule := rfl
@[simp] theorem State.emit_cue (e : PortEvent) : (s.emit e).cue = s.cue := rfl
@[simp] theorem State.emit_parity (e : PortEvent) : (s.emit e).parity = s.parity := rfl
@[simp] theorem State.emit_intake (e : PortEvent) : (s.emit e).intake = s.intake := rfl
@[simp] theorem State.emit_port (e : PortEvent) : (s.emit e).port = s.port := rfl
@[simp] theorem State.emit_own (e : PortEvent) : (s.emit e).own = s.own := rfl
@[simp] theorem State.emit_rep (e : PortEvent) : (s.emit e).rep = s.rep := rfl

/-! ### setLane -/

@[simp] theorem State.setLane_pending (n : Fin 4) (l : Lane) : (s.setLane n l).pending = s.pending := rfl
@[simp] theorem State.setLane_out (n : Fin 4) (l : Lane) : (s.setLane n l).out = s.out := rfl
@[simp] theorem State.setLane_pins (n : Fin 4) (l : Lane) : (s.setLane n l).pins = s.pins := rfl
@[simp] theorem State.setLane_device (n : Fin 4) (l : Lane) : (s.setLane n l).device = s.device := rfl
@[simp] theorem State.setLane_loader (n : Fin 4) (l : Lane) : (s.setLane n l).loader = s.loader := rfl
@[simp] theorem State.setLane_conf (n : Fin 4) (l : Lane) : (s.setLane n l).conf = s.conf := rfl
@[simp] theorem State.setLane_items (n : Fin 4) (l : Lane) : (s.setLane n l).items = s.items := rfl
@[simp] theorem State.setLane_segments (n : Fin 4) (l : Lane) : (s.setLane n l).segments = s.segments := rfl
@[simp] theorem State.setLane_fonts (n : Fin 4) (l : Lane) : (s.setLane n l).fonts = s.fonts := rfl
@[simp] theorem State.setLane_styles (n : Fin 4) (l : Lane) : (s.setLane n l).styles = s.styles := rfl
@[simp] theorem State.setLane_quotes (n : Fin 4) (l : Lane) : (s.setLane n l).quotes = s.quotes := rfl
@[simp] theorem State.setLane_clock (n : Fin 4) (l : Lane) : (s.setLane n l).clock = s.clock := rfl
@[simp] theorem State.setLane_schedule (n : Fin 4) (l : Lane) : (s.setLane n l).schedule = s.schedule := rfl
@[simp] theorem State.setLane_cue (n : Fin 4) (l : Lane) : (s.setLane n l).cue = s.cue := rfl
@[simp] theorem State.setLane_parity (n : Fin 4) (l : Lane) : (s.setLane n l).parity = s.parity := rfl
@[simp] theorem State.setLane_intake (n : Fin 4) (l : Lane) : (s.setLane n l).intake = s.intake := rfl
@[simp] theorem State.setLane_port (n : Fin 4) (l : Lane) : (s.setLane n l).port = s.port := rfl
@[simp] theorem State.setLane_own (n : Fin 4) (l : Lane) : (s.setLane n l).own = s.own := rfl
@[simp] theorem State.setLane_rep (n : Fin 4) (l : Lane) : (s.setLane n l).rep = s.rep := rfl

/-! ### setQuote -/

@[simp] theorem State.setQuote_pending (n : Nat) (q : QuoteSlot) : (s.setQuote n q).pending = s.pending := rfl
@[simp] theorem State.setQuote_out (n : Nat) (q : QuoteSlot) : (s.setQuote n q).out = s.out := rfl
@[simp] theorem State.setQuote_pins (n : Nat) (q : QuoteSlot) : (s.setQuote n q).pins = s.pins := rfl
@[simp] theorem State.setQuote_device (n : Nat) (q : QuoteSlot) : (s.setQuote n q).device = s.device := rfl
@[simp] theorem State.setQuote_loader (n : Nat) (q : QuoteSlot) : (s.setQuote n q).loader = s.loader := rfl
@[simp] theorem State.setQuote_conf (n : Nat) (q : QuoteSlot) : (s.setQuote n q).conf = s.conf := rfl
@[simp] theorem State.setQuote_lanes (n : Nat) (q : QuoteSlot) : (s.setQuote n q).lanes = s.lanes := rfl
@[simp] theorem State.setQuote_items (n : Nat) (q : QuoteSlot) : (s.setQuote n q).items = s.items := rfl
@[simp] theorem State.setQuote_segments (n : Nat) (q : QuoteSlot) : (s.setQuote n q).segments = s.segments := rfl
@[simp] theorem State.setQuote_fonts (n : Nat) (q : QuoteSlot) : (s.setQuote n q).fonts = s.fonts := rfl
@[simp] theorem State.setQuote_styles (n : Nat) (q : QuoteSlot) : (s.setQuote n q).styles = s.styles := rfl
@[simp] theorem State.setQuote_clock (n : Nat) (q : QuoteSlot) : (s.setQuote n q).clock = s.clock := rfl
@[simp] theorem State.setQuote_schedule (n : Nat) (q : QuoteSlot) : (s.setQuote n q).schedule = s.schedule := rfl
@[simp] theorem State.setQuote_cue (n : Nat) (q : QuoteSlot) : (s.setQuote n q).cue = s.cue := rfl
@[simp] theorem State.setQuote_parity (n : Nat) (q : QuoteSlot) : (s.setQuote n q).parity = s.parity := rfl
@[simp] theorem State.setQuote_intake (n : Nat) (q : QuoteSlot) : (s.setQuote n q).intake = s.intake := rfl
@[simp] theorem State.setQuote_port (n : Nat) (q : QuoteSlot) : (s.setQuote n q).port = s.port := rfl
@[simp] theorem State.setQuote_own (n : Nat) (q : QuoteSlot) : (s.setQuote n q).own = s.own := rfl
@[simp] theorem State.setQuote_rep (n : Nat) (q : QuoteSlot) : (s.setQuote n q).rep = s.rep := rfl

/-! ### setSlot -/

@[simp] theorem State.setSlot_pending (n : Nat) (c : CommandSlot) : (s.setSlot n c).pending = s.pending := rfl
@[simp] theorem State.setSlot_out (n : Nat) (c : CommandSlot) : (s.setSlot n c).out = s.out := rfl
@[simp] theorem State.setSlot_pins (n : Nat) (c : CommandSlot) : (s.setSlot n c).pins = s.pins := rfl
@[simp] theorem State.setSlot_device (n : Nat) (c : CommandSlot) : (s.setSlot n c).device = s.device := rfl
@[simp] theorem State.setSlot_loader (n : Nat) (c : CommandSlot) : (s.setSlot n c).loader = s.loader := rfl
@[simp] theorem State.setSlot_conf (n : Nat) (c : CommandSlot) : (s.setSlot n c).conf = s.conf := rfl
@[simp] theorem State.setSlot_lanes (n : Nat) (c : CommandSlot) : (s.setSlot n c).lanes = s.lanes := rfl
@[simp] theorem State.setSlot_items (n : Nat) (c : CommandSlot) : (s.setSlot n c).items = s.items := rfl
@[simp] theorem State.setSlot_segments (n : Nat) (c : CommandSlot) : (s.setSlot n c).segments = s.segments := rfl
@[simp] theorem State.setSlot_fonts (n : Nat) (c : CommandSlot) : (s.setSlot n c).fonts = s.fonts := rfl
@[simp] theorem State.setSlot_styles (n : Nat) (c : CommandSlot) : (s.setSlot n c).styles = s.styles := rfl
@[simp] theorem State.setSlot_quotes (n : Nat) (c : CommandSlot) : (s.setSlot n c).quotes = s.quotes := rfl
@[simp] theorem State.setSlot_clock (n : Nat) (c : CommandSlot) : (s.setSlot n c).clock = s.clock := rfl
@[simp] theorem State.setSlot_schedule (n : Nat) (c : CommandSlot) : (s.setSlot n c).schedule = s.schedule := rfl
@[simp] theorem State.setSlot_cue (n : Nat) (c : CommandSlot) : (s.setSlot n c).cue = s.cue := rfl
@[simp] theorem State.setSlot_parity (n : Nat) (c : CommandSlot) : (s.setSlot n c).parity = s.parity := rfl
@[simp] theorem State.setSlot_port (n : Nat) (c : CommandSlot) : (s.setSlot n c).port = s.port := rfl
@[simp] theorem State.setSlot_own (n : Nat) (c : CommandSlot) : (s.setSlot n c).own = s.own := rfl
@[simp] theorem State.setSlot_rep (n : Nat) (c : CommandSlot) : (s.setSlot n c).rep = s.rep := rfl

/-! ### freeSlot -/

@[simp] theorem State.freeSlot_pending (n : Nat) : (s.freeSlot n).pending = s.pending := rfl
@[simp] theorem State.freeSlot_out (n : Nat) : (s.freeSlot n).out = s.out := rfl
@[simp] theorem State.freeSlot_pins (n : Nat) : (s.freeSlot n).pins = s.pins := rfl
@[simp] theorem State.freeSlot_device (n : Nat) : (s.freeSlot n).device = s.device := rfl
@[simp] theorem State.freeSlot_loader (n : Nat) : (s.freeSlot n).loader = s.loader := rfl
@[simp] theorem State.freeSlot_conf (n : Nat) : (s.freeSlot n).conf = s.conf := rfl
@[simp] theorem State.freeSlot_lanes (n : Nat) : (s.freeSlot n).lanes = s.lanes := rfl
@[simp] theorem State.freeSlot_items (n : Nat) : (s.freeSlot n).items = s.items := rfl
@[simp] theorem State.freeSlot_segments (n : Nat) : (s.freeSlot n).segments = s.segments := rfl
@[simp] theorem State.freeSlot_fonts (n : Nat) : (s.freeSlot n).fonts = s.fonts := rfl
@[simp] theorem State.freeSlot_styles (n : Nat) : (s.freeSlot n).styles = s.styles := rfl
@[simp] theorem State.freeSlot_quotes (n : Nat) : (s.freeSlot n).quotes = s.quotes := rfl
@[simp] theorem State.freeSlot_clock (n : Nat) : (s.freeSlot n).clock = s.clock := rfl
@[simp] theorem State.freeSlot_schedule (n : Nat) : (s.freeSlot n).schedule = s.schedule := rfl
@[simp] theorem State.freeSlot_cue (n : Nat) : (s.freeSlot n).cue = s.cue := rfl
@[simp] theorem State.freeSlot_parity (n : Nat) : (s.freeSlot n).parity = s.parity := rfl
@[simp] theorem State.freeSlot_port (n : Nat) : (s.freeSlot n).port = s.port := rfl
@[simp] theorem State.freeSlot_own (n : Nat) : (s.freeSlot n).own = s.own := rfl
@[simp] theorem State.freeSlot_rep (n : Nat) : (s.freeSlot n).rep = s.rep := rfl

/-! ### raise -/

@[simp] theorem State.raise_pending (e : Event) : (s.raise e).pending = s.pending := rfl
@[simp] theorem State.raise_out (e : Event) : (s.raise e).out = s.out := rfl
@[simp] theorem State.raise_pins (e : Event) : (s.raise e).pins = s.pins := rfl
@[simp] theorem State.raise_device (e : Event) : (s.raise e).device = s.device := rfl
@[simp] theorem State.raise_loader (e : Event) : (s.raise e).loader = s.loader := rfl
@[simp] theorem State.raise_conf (e : Event) : (s.raise e).conf = s.conf := rfl
@[simp] theorem State.raise_lanes (e : Event) : (s.raise e).lanes = s.lanes := rfl
@[simp] theorem State.raise_items (e : Event) : (s.raise e).items = s.items := rfl
@[simp] theorem State.raise_segments (e : Event) : (s.raise e).segments = s.segments := rfl
@[simp] theorem State.raise_fonts (e : Event) : (s.raise e).fonts = s.fonts := rfl
@[simp] theorem State.raise_styles (e : Event) : (s.raise e).styles = s.styles := rfl
@[simp] theorem State.raise_quotes (e : Event) : (s.raise e).quotes = s.quotes := rfl
@[simp] theorem State.raise_clock (e : Event) : (s.raise e).clock = s.clock := rfl
@[simp] theorem State.raise_schedule (e : Event) : (s.raise e).schedule = s.schedule := rfl
@[simp] theorem State.raise_cue (e : Event) : (s.raise e).cue = s.cue := rfl
@[simp] theorem State.raise_parity (e : Event) : (s.raise e).parity = s.parity := rfl
@[simp] theorem State.raise_intake (e : Event) : (s.raise e).intake = s.intake := rfl
@[simp] theorem State.raise_port (e : Event) : (s.raise e).port = s.port := rfl
@[simp] theorem State.raise_own (e : Event) : (s.raise e).own = s.own := rfl

/-! ### setInput -/

@[simp] theorem State.setInput_pending (n : Fin 4) (i : CueInput) : (s.setInput n i).pending = s.pending := rfl
@[simp] theorem State.setInput_out (n : Fin 4) (i : CueInput) : (s.setInput n i).out = s.out := rfl
@[simp] theorem State.setInput_pins (n : Fin 4) (i : CueInput) : (s.setInput n i).pins = s.pins := rfl
@[simp] theorem State.setInput_device (n : Fin 4) (i : CueInput) : (s.setInput n i).device = s.device := rfl
@[simp] theorem State.setInput_loader (n : Fin 4) (i : CueInput) : (s.setInput n i).loader = s.loader := rfl
@[simp] theorem State.setInput_conf (n : Fin 4) (i : CueInput) : (s.setInput n i).conf = s.conf := rfl
@[simp] theorem State.setInput_lanes (n : Fin 4) (i : CueInput) : (s.setInput n i).lanes = s.lanes := rfl
@[simp] theorem State.setInput_items (n : Fin 4) (i : CueInput) : (s.setInput n i).items = s.items := rfl
@[simp] theorem State.setInput_segments (n : Fin 4) (i : CueInput) : (s.setInput n i).segments = s.segments := rfl
@[simp] theorem State.setInput_fonts (n : Fin 4) (i : CueInput) : (s.setInput n i).fonts = s.fonts := rfl
@[simp] theorem State.setInput_styles (n : Fin 4) (i : CueInput) : (s.setInput n i).styles = s.styles := rfl
@[simp] theorem State.setInput_quotes (n : Fin 4) (i : CueInput) : (s.setInput n i).quotes = s.quotes := rfl
@[simp] theorem State.setInput_clock (n : Fin 4) (i : CueInput) : (s.setInput n i).clock = s.clock := rfl
@[simp] theorem State.setInput_schedule (n : Fin 4) (i : CueInput) : (s.setInput n i).schedule = s.schedule := rfl
@[simp] theorem State.setInput_parity (n : Fin 4) (i : CueInput) : (s.setInput n i).parity = s.parity := rfl
@[simp] theorem State.setInput_intake (n : Fin 4) (i : CueInput) : (s.setInput n i).intake = s.intake := rfl
@[simp] theorem State.setInput_port (n : Fin 4) (i : CueInput) : (s.setInput n i).port = s.port := rfl
@[simp] theorem State.setInput_own (n : Fin 4) (i : CueInput) : (s.setInput n i).own = s.own := rfl
@[simp] theorem State.setInput_rep (n : Fin 4) (i : CueInput) : (s.setInput n i).rep = s.rep := rfl

/-! ### setItem -/

@[simp] theorem State.setItem_pending (i : Nat) (it : Item) : (s.setItem i it).pending = s.pending := rfl
@[simp] theorem State.setItem_out (i : Nat) (it : Item) : (s.setItem i it).out = s.out := rfl
@[simp] theorem State.setItem_pins (i : Nat) (it : Item) : (s.setItem i it).pins = s.pins := rfl
@[simp] theorem State.setItem_device (i : Nat) (it : Item) : (s.setItem i it).device = s.device := rfl
@[simp] theorem State.setItem_loader (i : Nat) (it : Item) : (s.setItem i it).loader = s.loader := rfl
@[simp] theorem State.setItem_conf (i : Nat) (it : Item) : (s.setItem i it).conf = s.conf := rfl
@[simp] theorem State.setItem_lanes (i : Nat) (it : Item) : (s.setItem i it).lanes = s.lanes := rfl
@[simp] theorem State.setItem_segments (i : Nat) (it : Item) : (s.setItem i it).segments = s.segments := rfl
@[simp] theorem State.setItem_fonts (i : Nat) (it : Item) : (s.setItem i it).fonts = s.fonts := rfl
@[simp] theorem State.setItem_styles (i : Nat) (it : Item) : (s.setItem i it).styles = s.styles := rfl
@[simp] theorem State.setItem_quotes (i : Nat) (it : Item) : (s.setItem i it).quotes = s.quotes := rfl
@[simp] theorem State.setItem_clock (i : Nat) (it : Item) : (s.setItem i it).clock = s.clock := rfl
@[simp] theorem State.setItem_schedule (i : Nat) (it : Item) : (s.setItem i it).schedule = s.schedule := rfl
@[simp] theorem State.setItem_cue (i : Nat) (it : Item) : (s.setItem i it).cue = s.cue := rfl
@[simp] theorem State.setItem_parity (i : Nat) (it : Item) : (s.setItem i it).parity = s.parity := rfl
@[simp] theorem State.setItem_intake (i : Nat) (it : Item) : (s.setItem i it).intake = s.intake := rfl
@[simp] theorem State.setItem_port (i : Nat) (it : Item) : (s.setItem i it).port = s.port := rfl
@[simp] theorem State.setItem_own (i : Nat) (it : Item) : (s.setItem i it).own = s.own := rfl
@[simp] theorem State.setItem_rep (i : Nat) (it : Item) : (s.setItem i it).rep = s.rep := rfl

/-! ### setSchedEntry -/

@[simp] theorem State.setSchedEntry_pending (i : Nat) (e : SchedEntry) : (s.setSchedEntry i e).pending = s.pending := rfl
@[simp] theorem State.setSchedEntry_out (i : Nat) (e : SchedEntry) : (s.setSchedEntry i e).out = s.out := rfl
@[simp] theorem State.setSchedEntry_pins (i : Nat) (e : SchedEntry) : (s.setSchedEntry i e).pins = s.pins := rfl
@[simp] theorem State.setSchedEntry_device (i : Nat) (e : SchedEntry) : (s.setSchedEntry i e).device = s.device := rfl
@[simp] theorem State.setSchedEntry_loader (i : Nat) (e : SchedEntry) : (s.setSchedEntry i e).loader = s.loader := rfl
@[simp] theorem State.setSchedEntry_conf (i : Nat) (e : SchedEntry) : (s.setSchedEntry i e).conf = s.conf := rfl
@[simp] theorem State.setSchedEntry_lanes (i : Nat) (e : SchedEntry) : (s.setSchedEntry i e).lanes = s.lanes := rfl
@[simp] theorem State.setSchedEntry_items (i : Nat) (e : SchedEntry) : (s.setSchedEntry i e).items = s.items := rfl
@[simp] theorem State.setSchedEntry_segments (i : Nat) (e : SchedEntry) : (s.setSchedEntry i e).segments = s.segments := rfl
@[simp] theorem State.setSchedEntry_fonts (i : Nat) (e : SchedEntry) : (s.setSchedEntry i e).fonts = s.fonts := rfl
@[simp] theorem State.setSchedEntry_styles (i : Nat) (e : SchedEntry) : (s.setSchedEntry i e).styles = s.styles := rfl
@[simp] theorem State.setSchedEntry_quotes (i : Nat) (e : SchedEntry) : (s.setSchedEntry i e).quotes = s.quotes := rfl
@[simp] theorem State.setSchedEntry_clock (i : Nat) (e : SchedEntry) : (s.setSchedEntry i e).clock = s.clock := rfl
@[simp] theorem State.setSchedEntry_cue (i : Nat) (e : SchedEntry) : (s.setSchedEntry i e).cue = s.cue := rfl
@[simp] theorem State.setSchedEntry_parity (i : Nat) (e : SchedEntry) : (s.setSchedEntry i e).parity = s.parity := rfl
@[simp] theorem State.setSchedEntry_intake (i : Nat) (e : SchedEntry) : (s.setSchedEntry i e).intake = s.intake := rfl
@[simp] theorem State.setSchedEntry_port (i : Nat) (e : SchedEntry) : (s.setSchedEntry i e).port = s.port := rfl
@[simp] theorem State.setSchedEntry_own (i : Nat) (e : SchedEntry) : (s.setSchedEntry i e).own = s.own := rfl
@[simp] theorem State.setSchedEntry_rep (i : Nat) (e : SchedEntry) : (s.setSchedEntry i e).rep = s.rep := rfl

/-! ### setPendingStyle -/

@[simp] theorem State.setPendingStyle_pending (k : Nat) (v : Style) : (s.setPendingStyle k v).pending = s.pending := rfl
@[simp] theorem State.setPendingStyle_out (k : Nat) (v : Style) : (s.setPendingStyle k v).out = s.out := rfl
@[simp] theorem State.setPendingStyle_pins (k : Nat) (v : Style) : (s.setPendingStyle k v).pins = s.pins := rfl
@[simp] theorem State.setPendingStyle_device (k : Nat) (v : Style) : (s.setPendingStyle k v).device = s.device := rfl
@[simp] theorem State.setPendingStyle_loader (k : Nat) (v : Style) : (s.setPendingStyle k v).loader = s.loader := rfl
@[simp] theorem State.setPendingStyle_conf (k : Nat) (v : Style) : (s.setPendingStyle k v).conf = s.conf := rfl
@[simp] theorem State.setPendingStyle_lanes (k : Nat) (v : Style) : (s.setPendingStyle k v).lanes = s.lanes := rfl
@[simp] theorem State.setPendingStyle_items (k : Nat) (v : Style) : (s.setPendingStyle k v).items = s.items := rfl
@[simp] theorem State.setPendingStyle_segments (k : Nat) (v : Style) : (s.setPendingStyle k v).segments = s.segments := rfl
@[simp] theorem State.setPendingStyle_fonts (k : Nat) (v : Style) : (s.setPendingStyle k v).fonts = s.fonts := rfl
@[simp] theorem State.setPendingStyle_quotes (k : Nat) (v : Style) : (s.setPendingStyle k v).quotes = s.quotes := rfl
@[simp] theorem State.setPendingStyle_clock (k : Nat) (v : Style) : (s.setPendingStyle k v).clock = s.clock := rfl
@[simp] theorem State.setPendingStyle_schedule (k : Nat) (v : Style) : (s.setPendingStyle k v).schedule = s.schedule := rfl
@[simp] theorem State.setPendingStyle_cue (k : Nat) (v : Style) : (s.setPendingStyle k v).cue = s.cue := rfl
@[simp] theorem State.setPendingStyle_parity (k : Nat) (v : Style) : (s.setPendingStyle k v).parity = s.parity := rfl
@[simp] theorem State.setPendingStyle_intake (k : Nat) (v : Style) : (s.setPendingStyle k v).intake = s.intake := rfl
@[simp] theorem State.setPendingStyle_port (k : Nat) (v : Style) : (s.setPendingStyle k v).port = s.port := rfl
@[simp] theorem State.setPendingStyle_own (k : Nat) (v : Style) : (s.setPendingStyle k v).own = s.own := rfl
@[simp] theorem State.setPendingStyle_rep (k : Nat) (v : Style) : (s.setPendingStyle k v).rep = s.rep := rfl

/-! ### handCueOuts -/

@[simp] theorem State.handCueOuts_pending (as : List CueOut) : (s.handCueOuts as).pending = s.pending := rfl
@[simp] theorem State.handCueOuts_out (as : List CueOut) : (s.handCueOuts as).out = s.out := rfl
@[simp] theorem State.handCueOuts_pins (as : List CueOut) : (s.handCueOuts as).pins = s.pins := rfl
@[simp] theorem State.handCueOuts_device (as : List CueOut) : (s.handCueOuts as).device = s.device := rfl
@[simp] theorem State.handCueOuts_loader (as : List CueOut) : (s.handCueOuts as).loader = s.loader := rfl
@[simp] theorem State.handCueOuts_conf (as : List CueOut) : (s.handCueOuts as).conf = s.conf := rfl
@[simp] theorem State.handCueOuts_lanes (as : List CueOut) : (s.handCueOuts as).lanes = s.lanes := rfl
@[simp] theorem State.handCueOuts_items (as : List CueOut) : (s.handCueOuts as).items = s.items := rfl
@[simp] theorem State.handCueOuts_segments (as : List CueOut) : (s.handCueOuts as).segments = s.segments := rfl
@[simp] theorem State.handCueOuts_fonts (as : List CueOut) : (s.handCueOuts as).fonts = s.fonts := rfl
@[simp] theorem State.handCueOuts_styles (as : List CueOut) : (s.handCueOuts as).styles = s.styles := rfl
@[simp] theorem State.handCueOuts_quotes (as : List CueOut) : (s.handCueOuts as).quotes = s.quotes := rfl
@[simp] theorem State.handCueOuts_clock (as : List CueOut) : (s.handCueOuts as).clock = s.clock := rfl
@[simp] theorem State.handCueOuts_schedule (as : List CueOut) : (s.handCueOuts as).schedule = s.schedule := rfl
@[simp] theorem State.handCueOuts_parity (as : List CueOut) : (s.handCueOuts as).parity = s.parity := rfl
@[simp] theorem State.handCueOuts_intake (as : List CueOut) : (s.handCueOuts as).intake = s.intake := rfl
@[simp] theorem State.handCueOuts_port (as : List CueOut) : (s.handCueOuts as).port = s.port := rfl
@[simp] theorem State.handCueOuts_own (as : List CueOut) : (s.handCueOuts as).own = s.own := rfl
@[simp] theorem State.handCueOuts_rep (as : List CueOut) : (s.handCueOuts as).rep = s.rep := rfl

/-! ### dropHeld -/

@[simp] theorem State.dropHeld_pending : s.dropHeld.pending = s.pending := rfl
@[simp] theorem State.dropHeld_out : s.dropHeld.out = s.out := rfl
@[simp] theorem State.dropHeld_pins : s.dropHeld.pins = s.pins := rfl
@[simp] theorem State.dropHeld_device : s.dropHeld.device = s.device := rfl
@[simp] theorem State.dropHeld_loader : s.dropHeld.loader = s.loader := rfl
@[simp] theorem State.dropHeld_conf : s.dropHeld.conf = s.conf := rfl
@[simp] theorem State.dropHeld_lanes : s.dropHeld.lanes = s.lanes := rfl
@[simp] theorem State.dropHeld_items : s.dropHeld.items = s.items := rfl
@[simp] theorem State.dropHeld_segments : s.dropHeld.segments = s.segments := rfl
@[simp] theorem State.dropHeld_fonts : s.dropHeld.fonts = s.fonts := rfl
@[simp] theorem State.dropHeld_styles : s.dropHeld.styles = s.styles := rfl
@[simp] theorem State.dropHeld_quotes : s.dropHeld.quotes = s.quotes := rfl
@[simp] theorem State.dropHeld_clock : s.dropHeld.clock = s.clock := rfl
@[simp] theorem State.dropHeld_schedule : s.dropHeld.schedule = s.schedule := rfl
@[simp] theorem State.dropHeld_cue : s.dropHeld.cue = s.cue := rfl
@[simp] theorem State.dropHeld_parity : s.dropHeld.parity = s.parity := rfl
@[simp] theorem State.dropHeld_intake : s.dropHeld.intake = s.intake := rfl
@[simp] theorem State.dropHeld_own : s.dropHeld.own = s.own := rfl
@[simp] theorem State.dropHeld_rep : s.dropHeld.rep = s.rep := rfl

/-! ### What the updates set -/

@[simp] theorem State.quiet_out : s.quiet.out = [] := rfl
@[simp] theorem State.emit_out (e : PortEvent) : (s.emit e).out = s.out ++ [e] := rfl
@[simp] theorem State.setLane_lanes (n : Fin 4) (l : Lane) :
    (s.setLane n l).lanes = s.lanes.set n l := rfl
@[simp] theorem State.setQuote_quotes (n : Nat) (q : QuoteSlot) :
    (s.setQuote n q).quotes = Store.put QuoteSlot.initial s.quotes n q := rfl
@[simp] theorem State.setSlot_slots (n : Nat) (c : CommandSlot) :
    (s.setSlot n c).intake.slots = Store.put CommandSlot.initial s.intake.slots n c := rfl
@[simp] theorem State.setSlot_queue (n : Nat) (c : CommandSlot) :
    (s.setSlot n c).intake.queue = s.intake.queue := rfl
@[simp] theorem State.setSlot_reload (n : Nat) (c : CommandSlot) :
    (s.setSlot n c).intake.reload = s.intake.reload := rfl
@[simp] theorem State.setSlot_overrun (n : Nat) (c : CommandSlot) :
    (s.setSlot n c).intake.overrun = s.intake.overrun := rfl
@[simp] theorem State.setSlot_lastTag (n : Nat) (c : CommandSlot) :
    (s.setSlot n c).intake.lastTag = s.intake.lastTag := rfl
@[simp] theorem State.freeSlot_queue (n : Nat) : (s.freeSlot n).intake.queue = s.intake.queue := rfl
@[simp] theorem State.freeSlot_reload (n : Nat) : (s.freeSlot n).intake.reload = s.intake.reload := rfl
@[simp] theorem State.freeSlot_overrun (n : Nat) :
    (s.freeSlot n).intake.overrun = s.intake.overrun := rfl
@[simp] theorem State.freeSlot_lastTag (n : Nat) :
    (s.freeSlot n).intake.lastTag = s.intake.lastTag := rfl
@[simp] theorem State.raise_events (e : Event) : (s.raise e).rep.events = s.rep.events ||| e.bit := rfl
@[simp] theorem State.raise_mask (e : Event) : (s.raise e).rep.mask = s.rep.mask := rfl
@[simp] theorem State.raise_count (e : Event) : (s.raise e).rep.count = s.rep.count := rfl
@[simp] theorem State.raise_taken (e : Event) : (s.raise e).rep.taken = s.rep.taken := rfl
@[simp] theorem State.setInput_inputs (n : Fin 4) (i : CueInput) :
    (s.setInput n i).cue.inputs = s.cue.inputs.set n i := rfl
@[simp] theorem State.setInput_lineReg (n : Fin 4) (i : CueInput) :
    (s.setInput n i).cue.lineReg = s.cue.lineReg := rfl
@[simp] theorem State.setInput_out0 (n : Fin 4) (i : CueInput) :
    (s.setInput n i).cue.out0 = s.cue.out0 := rfl
@[simp] theorem State.setInput_out1 (n : Fin 4) (i : CueInput) :
    (s.setInput n i).cue.out1 = s.cue.out1 := rfl
@[simp] theorem State.setInput_latch (n : Fin 4) (i : CueInput) :
    (s.setInput n i).cue.latch = s.cue.latch := rfl
@[simp] theorem State.setItem_items (i : Nat) (it : Item) :
    (s.setItem i it).items = Store.put Item.undefined s.items i it := rfl
@[simp] theorem State.setSchedEntry_schedule (i : Nat) (e : SchedEntry) :
    (s.setSchedEntry i e).schedule = Store.put SchedEntry.initial s.schedule i e := rfl
@[simp] theorem State.setPendingStyle_cur (k : Nat) (v : Style) :
    (s.setPendingStyle k v).styles.cur = s.styles.cur := rfl
@[simp] theorem State.setPendingStyle_deflt (k : Nat) (v : Style) :
    (s.setPendingStyle k v).styles.deflt = s.styles.deflt := rfl
@[simp] theorem State.setPendingStyle_pend (k : Nat) (v : Style) :
    (s.setPendingStyle k v).styles.pend = Store.put Style.builtIn s.styles.pend k v := rfl
@[simp] theorem State.handCueOuts_cue (as : List CueOut) :
    (s.handCueOuts as).cue = as.foldl CueUnit.apply s.cue := rfl
@[simp] theorem State.dropHeld_held : s.dropHeld.port.held = none := rfl
@[simp] theorem State.dropHeld_waiting : s.dropHeld.port.waiting = s.port.waiting := rfl

/-! ### Conditional events -/

@[simp] theorem State.raiseIf_true (e : Event) : s.raiseIf true e = s.raise e := rfl
@[simp] theorem State.raiseIf_false (e : Event) : s.raiseIf false e = s := rfl

/-- All that a conditional event can change is the event bits. -/
theorem State.raiseIf_eq (c : Bool) (e : Event) :
    s.raiseIf c e =
      { s with rep := { s.rep with events := s.rep.events ||| (if c then e.bit else 0) } } := by
  cases c
  · simp [State.raiseIf]
  · rfl

/-! ### Handing over a result -/

/-- R149, R157: all that handing over a result changes: the write-back queue and CMD_ERROR. -/
theorem State.handOver_eq (r : ResultWord) :
    s.handOver r =
      { s with
        own := { s.own with writeBack := s.own.writeBack ++ [r] }
        rep := { s.rep with
          events := s.rep.events ||| (if r.result = .ok then 0 else Event.bit .cmdError) } } := by
  unfold State.handOver
  rw [State.raiseIf_eq]
  cases r.result <;> rfl

end Sys2Proof.Machine
end

