-- ==== Sys2Proof/Laws/Intake.lean ====
section
/-! SUPPORT. The intake: which command is executed, all that an execution and a completion can do, and
the step. -/

namespace Sys2Proof.Machine

/-! ### The step -/

theorem step_of_pending {s : State} {c : Instr} {rest : List Instr} (h : s.pending = c :: rest) :
    step s = exec c { s with pending := rest } := by
  simp only [step, h]

theorem step_of_idle {s : State} (h : s.pending = []) : step s = .next s := by
  simp only [step, h]

/-! ### Which command is executed (R148) -/

theorem State.nextCommand_eq_some {s : State} {e : IntakeEntry} :
    s.nextCommand = some e ↔
      s.mayExecute = true ∧ s.intake.queue.head? = some e ∧
        (s.device = .active ∨ e.command.code = reloadCode) := by
  unfold State.nextCommand
  constructor
  · intro h
    split at h
    · rename_i hm
      split at h
      · cases h
      · rename_i q r hq
        split at h
        · rename_i hd
          cases h
          exact ⟨hm, by simp [hq], hd⟩
        · cases h
    · cases h
  · rintro ⟨hm, hq, hd⟩
    rw [if_pos hm]
    cases hl : s.intake.queue with
    | nil => simp [hl] at hq
    | cons a t =>
      simp only [hl, List.head?_cons, Option.some.injEq] at hq
      subst hq
      exact if_pos hd

/-- R148: the conditions of an execution, for the intake's choice. -/
theorem State.Executes.nextCommand {s : State} {e : IntakeEntry} {code : Nat}
    (h : s.Executes e code) : s.quiet.nextCommand = some e := by
  obtain ⟨hq, _, hr, hd, hl, hw, hh⟩ := h
  refine State.nextCommand_eq_some.mpr ⟨?_, hq, .inl hd⟩
  have hh' : s.quiet.heldFirst = false := hh
  simp [State.mayExecute, hr, hd, hl, hw, hh', Config.writeBackDepth]

/-- R148, R149: an execution of a command that its event names. -/
theorem State.run_of_executes {s : State} {e : IntakeEntry} {code : Nat} (h : s.Executes e code)
    (eff : Effect) :
    s.run code eff = (eff e.command s.quiet).1.complete e (eff e.command s.quiet).2 := by
  unfold State.run State.runIf
  rw [h.nextCommand]
  simp [h.2.1]

/-- All that an execution event can do: nothing, or the effect of the head command and its
completion. -/
theorem State.runIf_cases (s : State) (isMine : Nat → Bool) (eff : Effect) :
    s.runIf isMine eff = s.quiet ∨
      ∃ e, s.quiet.nextCommand = some e ∧ isMine e.command.code = true ∧
        s.runIf isMine eff = (eff e.command s.quiet).1.complete e (eff e.command s.quiet).2 := by
  unfold State.runIf
  cases h : s.quiet.nextCommand with
  | none => exact .inl rfl
  | some e =>
    by_cases hm : isMine e.command.code = true
    · exact .inr ⟨e, rfl, hm, if_pos hm⟩
    · exact .inl (if_neg hm)

/-! ### Completion (R149) -/

/-- R149, R157: all that a completion changes. -/
theorem State.complete_eq (s : State) (e : IntakeEntry) (r : ResultCode) :
    s.complete e r =
      { s with
        intake := { s.intake with
          queue := s.intake.queue.tail
          slots := Store.put CommandSlot.initial s.intake.slots e.slot
            { s.slot e.slot with inFlight := false } }
        own := { s.own with writeBack := s.own.writeBack ++ [e.command.answer e.slot r] }
        rep := { s.rep with
          events := s.rep.events ||| (if r = .ok then 0 else Event.bit .cmdError) } } := by
  unfold State.complete
  rw [State.handOver_eq]
  rfl

end Sys2Proof.Machine
end

