-- ==== Sys2Proof/Laws/Store.lean ====
section
/-! SUPPORT. Numbered stores and the fours: what a read gives after a write, and that a write keeps the
canonical form. -/

namespace Sys2Proof

/-! ### Four like things -/

@[simp] theorem Four.get_set_self {α : Type} (f : Four α) (n : Fin 4) (a : α) : (f.set n a).get n = a := by
  match n with
  | 0 => rfl
  | 1 => rfl
  | 2 => rfl
  | 3 => rfl

@[simp] theorem Four.get_set_ne {α : Type} (f : Four α) {m n : Fin 4} (a : α) (h : m ≠ n) :
    (f.set n a).get m = f.get m := by
  rcases m with ⟨_ | _ | _ | _ | m, hm⟩ <;> rcases n with ⟨_ | _ | _ | _ | n, hn⟩ <;>
    first | rfl | exact absurd rfl h | omega

theorem Four.get_set {α : Type} (f : Four α) (m n : Fin 4) (a : α) :
    (f.set n a).get m = if m = n then a else f.get m := by
  by_cases h : m = n
  · subst h; simp
  · simp [h]

@[simp] theorem Four.set_get {α : Type} (f : Four α) (n : Fin 4) : f.set n (f.get n) = f := by
  match n with
  | 0 => rfl
  | 1 => rfl
  | 2 => rfl
  | 3 => rfl

@[simp] theorem Four.get_all {α : Type} (a : α) (n : Fin 4) : (Four.all a).get n = a := by
  match n with
  | 0 => rfl
  | 1 => rfl
  | 2 => rfl
  | 3 => rfl

theorem Four.mem_toList {α : Type} (f : Four α) (a : α) : a ∈ f.toList ↔ ∃ n, f.get n = a := by
  constructor
  · intro h
    simp only [Four.toList, List.mem_cons, List.not_mem_nil, or_false] at h
    rcases h with h | h | h | h
    · exact ⟨0, h.symm⟩
    · exact ⟨1, h.symm⟩
    · exact ⟨2, h.symm⟩
    · exact ⟨3, h.symm⟩
  · rintro ⟨n, rfl⟩
    match n with
    | 0 => simp [Four.toList, Four.get]
    | 1 => simp [Four.toList, Four.get]
    | 2 => simp [Four.toList, Four.get]
    | 3 => simp [Four.toList, Four.get]

theorem mem_fours (n : Fin 4) : n ∈ fours := by
  match n with
  | 0 => decide
  | 1 => decide
  | 2 => decide
  | 3 => decide

theorem four?_eq_some {k : Nat} {n : Fin 4} : four? k = some n ↔ k = n.val := by
  unfold four?
  constructor
  · intro h
    split at h
    · exact congrArg Fin.val (Option.some.inj h)
    · cases h
  · rintro rfl
    simp [n.isLt]

namespace Machine

variable {α : Type} [DecidableEq α] {d v : α}

/-! ### Numbered stores -/

/-- Below every listed number a store reads as its default. -/
theorem Store.get_of_lt : ∀ {m : Store α} {lo : Nat}, Store.wfAbove d (some lo) m = true →
    ∀ {j : Nat}, j ≤ lo → Store.get d m j = d
  | [], _, _, _, _ => rfl
  | (k, w) :: t, lo, h, j, hj => by
    simp only [Store.wfAbove, Option.all_some, Bool.and_eq_true, decide_eq_true_eq] at h
    have hk : k ≠ j := by omega
    simp only [Store.get, hk, if_false]
    exact Store.get_of_lt h.2 (by omega)

theorem Store.wfAbove_mono : ∀ {m : Store α} {lo : Option Nat} {hi : Nat},
    Store.wfAbove d (some hi) m = true → (∀ k, lo = some k → k ≤ hi) → Store.wfAbove d lo m = true
  | [], _, _, _, _ => rfl
  | (k, w) :: t, lo, hi, h, hl => by
    simp only [Store.wfAbove, Option.all_some, Bool.and_eq_true, decide_eq_true_eq] at h ⊢
    refine ⟨⟨?_, h.1.2⟩, h.2⟩
    cases lo with
    | none => rfl
    | some l => simp only [Option.all_some, decide_eq_true_eq]; have := hl l rfl; omega

/-- A write keeps the canonical form above a bound. -/
theorem Store.put_wfAbove : ∀ {m : Store α} {lo : Option Nat} {k : Nat},
    Store.wfAbove d lo m = true → (∀ l, lo = some l → l < k) →
      Store.wfAbove d lo (Store.put d m k v) = true
  | [], lo, k, _, hl => by
    unfold Store.put
    split
    · rfl
    · rename_i hv
      simp only [Store.wfAbove, Bool.and_true, Bool.and_eq_true, decide_eq_true_eq]
      refine ⟨?_, hv⟩
      cases lo with
      | none => rfl
      | some l => simp [hl l rfl]
  | (j, w) :: t, lo, k, h, hl => by
    have h' := h
    simp only [Store.wfAbove, Bool.and_eq_true, decide_eq_true_eq] at h
    unfold Store.put
    split
    · rename_i hkj
      split
      · exact h'
      · rename_i hv
        simp only [Store.wfAbove, Bool.and_eq_true, decide_eq_true_eq, Option.all_some]
        refine ⟨⟨?_, hv⟩, ⟨hkj, h.1.2⟩, h.2⟩
        cases lo with
        | none => rfl
        | some l => simp [hl l rfl]
    · split
      · rename_i hkj
        subst hkj
        split
        · exact Store.wfAbove_mono h.2 (fun l e => Nat.le_of_lt (hl l e))
        · rename_i hv
          simp only [Store.wfAbove, Bool.and_eq_true, decide_eq_true_eq]
          exact ⟨⟨h.1.1, hv⟩, h.2⟩
      · rename_i h1 h2
        simp only [Store.wfAbove, Bool.and_eq_true, decide_eq_true_eq]
        exact ⟨h.1, Store.put_wfAbove h.2 (fun l e => by cases e; omega)⟩

/-- A write keeps the canonical form. -/
theorem Store.put_wf {m : Store α} {k : Nat} (h : Store.wf d m = true) :
    Store.wf d (Store.put d m k v) = true :=
  Store.put_wfAbove h (fun _ e => by cases e)

theorem Store.get_put_above : ∀ {m : Store α} {lo : Option Nat} {k : Nat},
    Store.wfAbove d lo m = true → ∀ j,
      Store.get d (Store.put d m k v) j = if j = k then v else Store.get d m j
  | [], lo, k, _, j => by
    unfold Store.put
    split
    · rename_i hv
      simp only [Store.get]; split <;> simp [hv]
    · simp only [Store.get, eq_comm]
  | (i, w) :: t, lo, k, h, j => by
    simp only [Store.wfAbove, Bool.and_eq_true, decide_eq_true_eq] at h
    unfold Store.put
    split
    · rename_i hki
      split
      · rename_i hv
        by_cases hjk : j = k
        · subst hjk
          have hij : i ≠ j := by omega
          simp only [Store.get, hij, if_false, if_true, hv]
          exact Store.get_of_lt h.2 (by omega)
        · simp [hjk]
      · by_cases hjk : j = k
        · subst hjk; simp [Store.get]
        · have : k ≠ j := fun e => hjk e.symm
          simp [Store.get, hjk, this]
    · split
      · rename_i hki
        subst hki
        by_cases hjk : j = k
        · subst hjk
          split
          · rename_i hv
            simp only [if_true, hv]
            exact Store.get_of_lt h.2 (Nat.le_refl _)
          · simp [Store.get]
        · have hne : k ≠ j := fun e => hjk e.symm
          split <;> simp [Store.get, hne]
      · rename_i h1 h2
        have ih := Store.get_put_above (k := k) h.2 j
        by_cases hij : i = j
        · subst hij
          have : i ≠ k := fun e => h2 e.symm
          simp [Store.get, this]
        · simp only [Store.get, hij, if_false]; exact ih

/-- What a store reads after a write: the value written at its number, the old record elsewhere. -/
theorem Store.get_put {m : Store α} {k : Nat} (h : Store.wf d m = true) (j : Nat) :
    Store.get d (Store.put d m k v) j = if j = k then v else Store.get d m j :=
  Store.get_put_above h j

@[simp] theorem Store.get_nil {β : Type} (b : β) (j : Nat) : Store.get b [] j = b := rfl

end Machine
end Sys2Proof
end

