-- ==== Sys2Proof/Laws/Lanes.lean ====
section
/-! SUPPORT. Lane actions and a lane's field start work: what each can change. -/

namespace Sys2Proof.Machine

@[simp] theorem State.lane_setLane_self (s : State) (n : Fin 4) (l : Lane) :
    (s.setLane n l).lane n = l := Four.get_set_self _ _ _

@[simp] theorem State.lane_setLane_ne (s : State) {m n : Fin 4} (l : Lane) (h : m ≠ n) :
    (s.setLane n l).lane m = s.lane m := Four.get_set_ne _ _ h

theorem State.setLane_lane (s : State) (n : Fin 4) : s.setLane n (s.lane n) = s := by
  simp only [State.setLane, State.lane, Four.set_get]

/-- A lane action changes nothing but its lane. -/
theorem State.actOnLane_frame (s : State) (a : LaneAction) (n : Fin 4) :
    ∃ l, (s.actOnLane a n).1 = s.setLane n l := by
  have keep : ∃ l, s = s.setLane n l := ⟨s.lane n, (s.setLane_lane n).symm⟩
  cases a <;> simp only [State.actOnLane]
  · unfold State.startLane
    dsimp only
    split
    · exact keep
    · split
      · split
        · exact keep
        · split
          · exact keep
          · exact ⟨_, rfl⟩
      all_goals first | exact keep | exact ⟨_, rfl⟩
  · unfold State.stopDrainLane
    dsimp only
    split <;> first | exact keep | exact ⟨_, rfl⟩
  · unfold State.stopFadeLane
    dsimp only
    split <;> first | exact keep | exact ⟨_, rfl⟩
  · unfold State.holdLane
    dsimp only
    split <;> first | exact keep | exact ⟨_, rfl⟩
  · unfold State.resumeLane
    dsimp only
    split <;> first | exact keep | exact ⟨_, rfl⟩
  · unfold State.takeLane
    dsimp only
    split <;> first | exact keep | exact ⟨_, rfl⟩

/-- What lane `n`'s field start work leaves: everything but its lane, the cue outputs and the event
bits. -/
structure State.WorkFrame (s t : State) (n : Fin 4) : Prop where
  pending  : t.pending = s.pending
  out      : t.out = s.out
  pins     : t.pins = s.pins
  device   : t.device = s.device
  loader   : t.loader = s.loader
  conf     : t.conf = s.conf
  others   : ∀ m, m ≠ n → t.lane m = s.lane m
  items    : t.items = s.items
  segments : t.segments = s.segments
  fonts    : t.fonts = s.fonts
  styles   : t.styles = s.styles
  quotes   : t.quotes = s.quotes
  clock    : t.clock = s.clock
  schedule : t.schedule = s.schedule
  inputs   : t.cue.inputs = s.cue.inputs
  lineReg  : t.cue.lineReg = s.cue.lineReg
  latch    : t.cue.latch = s.cue.latch
  parity   : t.parity = s.parity
  intake   : t.intake = s.intake
  port     : t.port = s.port
  own      : t.own = s.own
  mask     : t.rep.mask = s.rep.mask
  count    : t.rep.count = s.rep.count
  taken    : t.rep.taken = s.rep.taken

theorem State.WorkFrame.refl (s : State) (n : Fin 4) : s.WorkFrame s n := by
  constructor <;> intros <;> rfl

theorem State.WorkFrame.trans {s t u : State} {n : Fin 4} (h : s.WorkFrame t n) (k : t.WorkFrame u n) :
    s.WorkFrame u n := by
  constructor
  case others => exact fun m hm => (k.others m hm).trans (h.others m hm)
  all_goals first
    | exact k.pending.trans h.pending
    | exact k.out.trans h.out
    | exact k.pins.trans h.pins
    | exact k.device.trans h.device
    | exact k.loader.trans h.loader
    | exact k.conf.trans h.conf
    | exact k.items.trans h.items
    | exact k.segments.trans h.segments
    | exact k.fonts.trans h.fonts
    | exact k.styles.trans h.styles
    | exact k.quotes.trans h.quotes
    | exact k.clock.trans h.clock
    | exact k.schedule.trans h.schedule
    | exact k.inputs.trans h.inputs
    | exact k.lineReg.trans h.lineReg
    | exact k.latch.trans h.latch
    | exact k.parity.trans h.parity
    | exact k.intake.trans h.intake
    | exact k.port.trans h.port
    | exact k.own.trans h.own
    | exact k.mask.trans h.mask
    | exact k.count.trans h.count
    | exact k.taken.trans h.taken

theorem State.WorkFrame.setLane (s : State) (n : Fin 4) (l : Lane) : s.WorkFrame (s.setLane n l) n := by
  constructor
  case others => exact fun m hm => s.lane_setLane_ne l hm
  all_goals rfl

theorem State.WorkFrame.raiseIf (s : State) (n : Fin 4) (c : Bool) (e : Event) :
    s.WorkFrame (s.raiseIf c e) n := by
  rw [State.raiseIf_eq]
  constructor <;> intros <;> rfl

/-- R136: a cue-out action leaves the inputs, the line register and the latch. -/
theorem CueUnit.foldl_apply_frame (as : List CueOut) : ∀ u : CueUnit,
    (as.foldl CueUnit.apply u).inputs = u.inputs ∧ (as.foldl CueUnit.apply u).lineReg = u.lineReg ∧
      (as.foldl CueUnit.apply u).latch = u.latch := by
  induction as with
  | nil => exact fun u => ⟨rfl, rfl, rfl⟩
  | cons a t ih =>
    intro u
    have h : (u.apply a).inputs = u.inputs ∧ (u.apply a).lineReg = u.lineReg ∧
        (u.apply a).latch = u.latch := by
      unfold CueUnit.apply
      split
      · exact ⟨rfl, rfl, rfl⟩
      · cases a <;> exact ⟨rfl, rfl, rfl⟩
    obtain ⟨h1, h2, h3⟩ := ih (u.apply a)
    exact ⟨h1.trans h.1, h2.trans h.2.1, h3.trans h.2.2⟩

theorem State.WorkFrame.handCueOuts (s : State) (n : Fin 4) (as : List CueOut) :
    s.WorkFrame (s.handCueOuts as) n := by
  obtain ⟨h1, h2, h3⟩ := CueUnit.foldl_apply_frame as s.cue
  constructor
  case inputs => exact h1
  case lineReg => exact h2
  case latch => exact h3
  all_goals intros; rfl

/-- R8, R28, R41: each step of lane `n`'s field start work keeps to its frame. -/
theorem State.laneStep_frame (s : State) (n : Fin 4) (w : LaneWork) :
    s.WorkFrame (s.laneStep n w).1 n := by
  have sl := fun (t : State) (l : Lane) => State.WorkFrame.setLane t n l
  unfold State.laneStep
  dsimp only
  split
  · exact sl s _
  · exact sl s _
  · exact sl s _
  · exact sl s _
  · exact (sl s _).trans (.raiseIf _ n _ _)
  · unfold State.crossStep
    dsimp only
    split
    · exact (State.WorkFrame.handCueOuts s n _).trans (sl _ _)
    · exact .refl s n
  · unfold State.placeStep
    dsimp only
    split
    · exact .refl s n
    · split
      · exact (sl s _).trans (.raiseIf _ n _ _)
      · split
        · exact ((State.WorkFrame.handCueOuts s n _).trans (sl _ _)).trans (.raiseIf _ n _ _)
        · exact .refl s n
  · unfold State.envelopeStep
    dsimp only
    split
    · exact sl s _
    · exact .refl s n
  · exact sl s _
  · exact sl s _
  · unfold State.offStep
    dsimp only
    split
    · exact (sl s _).trans (.raiseIf _ n true _)
    · exact .refl s n
  · exact .refl s n

/-- The rest of a lane's field start work keeps to the same frame. -/
theorem State.laneRest_frame : ∀ (fuel : Nat) (s : State) (n : Fin 4) (w : LaneWork),
    s.WorkFrame (State.laneRest fuel s n w).1 n
  | 0, s, n, _ => .refl s n
  | fuel + 1, s, n, w => (s.laneStep_frame n w).trans (State.laneRest_frame fuel _ n _)

end Sys2Proof.Machine
end

