-- ==== Sys2Proof/Laws/Ports.lean ====
section
/-! SUPPORT. The ports: what taking beats and transactions can change. -/

namespace Sys2Proof.Machine

/-- What the aperture monitor and the decisions on closing writes leave: everything but the quote slots,
the command intake, the write-back queue, the event bits and what the port drives and holds. -/
structure State.PortFrame (s t : State) : Prop where
  pending  : t.pending = s.pending
  pins     : t.pins = s.pins
  device   : t.device = s.device
  loader   : t.loader = s.loader
  conf     : t.conf = s.conf
  lanes    : t.lanes = s.lanes
  items    : t.items = s.items
  segments : t.segments = s.segments
  fonts    : t.fonts = s.fonts
  styles   : t.styles = s.styles
  clock    : t.clock = s.clock
  schedule : t.schedule = s.schedule
  cue      : t.cue = s.cue
  parity   : t.parity = s.parity
  reload   : t.intake.reload = s.intake.reload
  written  : t.own.headWritten = s.own.headWritten
  reports  : t.own.reports = s.own.reports
  mask     : t.rep.mask = s.rep.mask
  count    : t.rep.count = s.rep.count
  taken    : t.rep.taken = s.rep.taken

theorem State.PortFrame.refl (s : State) : s.PortFrame s := by constructor <;> rfl

theorem State.PortFrame.trans {s t u : State} (h : s.PortFrame t) (k : t.PortFrame u) : s.PortFrame u :=
  ⟨k.pending.trans h.pending, k.pins.trans h.pins, k.device.trans h.device, k.loader.trans h.loader,
   k.conf.trans h.conf, k.lanes.trans h.lanes, k.items.trans h.items, k.segments.trans h.segments,
   k.fonts.trans h.fonts, k.styles.trans h.styles, k.clock.trans h.clock,
   k.schedule.trans h.schedule, k.cue.trans h.cue, k.parity.trans h.parity,
   k.reload.trans h.reload, k.written.trans h.written, k.reports.trans h.reports,
   k.mask.trans h.mask, k.count.trans h.count, k.taken.trans h.taken⟩

theorem State.PortFrame.emit (s : State) (e : PortEvent) : s.PortFrame (s.emit e) := by
  constructor <;> rfl

theorem State.PortFrame.emitWrite (s : State) (src : Source) (size : BeatSize) (bs : List Beat) :
    s.PortFrame (s.emitWrite src size bs) := by
  unfold State.emitWrite
  split
  · exact .refl s
  · exact .emit s _

theorem State.PortFrame.handOver (s : State) (r : ResultWord) : s.PortFrame (s.handOver r) := by
  rw [State.handOver_eq]
  constructor <;> rfl

/-- R46, R141: the monitor's merge of a beat. -/
theorem State.PortFrame.monitor (s : State) (b : Beat) : s.PortFrame (s.monitor b) := by
  unfold State.monitor
  split
  · split
    · exact .refl s
    · constructor <;> rfl
  · split
    · constructor <;> rfl
    · exact .refl s
  · exact .refl s

/-- R142: the outcome of a closing write. -/
theorem State.PortFrame.settle (s : State) (n : Nat) (c : Command) (d : Decision) :
    s.PortFrame (s.settle n c d) := by
  cases d with
  | append => constructor <;> rfl
  | answer r => exact .handOver s _
  | discard => constructor <;> rfl
  | hold need => exact .refl s

/-- R51, R141: the beats of a transaction. -/
theorem State.PortFrame.takeBeats : ∀ (bs : List Beat) (s : State), s.PortFrame (s.takeBeats bs).state
  | [], s => .refl s
  | b :: bs, s => by
    unfold State.takeBeats
    split
    · exact (State.PortFrame.monitor s b).trans (takeBeats bs _)
    · dsimp only
      split
      · exact .refl s
      · exact ((State.PortFrame.monitor s b).trans (.settle _ _ _ _)).trans (takeBeats bs _)

/-- R153, R155: the passing on of a transaction. -/
theorem Taken.pass_frame (t : Taken) (size : BeatSize) (priorErr : Bool) (rs : List MemResp) :
    t.state.PortFrame (t.pass size priorErr rs) := by
  unfold Taken.pass
  dsimp only
  split
  · exact (State.PortFrame.emitWrite _ _ _ _).trans (.emit _ _)
  · have h := State.PortFrame.emitWrite t.state .system size t.passed
    exact ⟨h.pending, h.pins, h.device, h.loader, h.conf, h.lanes, h.items, h.segments, h.fonts,
      h.styles, h.clock, h.schedule, h.cue, h.parity, h.reload, h.written, h.reports, h.mask, h.count,
      h.taken⟩

/-- R153: a transaction that the port takes. -/
theorem State.PortFrame.takeTxn (s : State) (t : SysTxn) : s.PortFrame (s.takeTxn t) := by
  cases t with
  | write w => exact (State.PortFrame.takeBeats w.beats s).trans (Taken.pass_frame _ _ _ _)
  | read r => exact (State.PortFrame.emit s _).trans (.emit _ _)

/-- R144, R153: the transactions that wait. -/
theorem State.PortFrame.takeWaiting : ∀ (ts : List SysTxn) (s : State), s.PortFrame (s.takeWaiting ts)
  | [], s => by constructor <;> rfl
  | t :: ts, s => by
    unfold State.takeWaiting
    split
    · constructor <;> rfl
    · exact (State.PortFrame.takeTxn s t).trans (takeWaiting ts _)

/-! ### What passes unmerged (R141, R150) -/

/-- R141: in LOADING every beat passes, and the part takes nothing of any. -/
theorem State.takeBeats_of_loading {s : State} (h : s.device = .loading) :
    ∀ bs : List Beat, s.takeBeats bs = { state := s, passed := bs, rest := none }
  | [] => rfl
  | b :: bs => by
    have hc : s.closes b = none := by unfold State.closes; split <;> simp [h]
    have hm : s.monitor b = s := by unfold State.monitor; split <;> simp [h]
    unfold State.takeBeats
    rw [hc, hm]
    simp only [State.takeBeats_of_loading h bs]

/-- R153, R155: beats carried to memory to the last one, nothing held. -/
theorem Taken.pass_of_all (s : State) (size : BeatSize) (bs : List Beat) (failed : Bool)
    (rs : List MemResp) :
    Taken.pass { state := s, passed := bs, rest := none } size failed rs =
      { s with out := s.out ++ passBeats size bs failed rs } := by
  unfold Taken.pass passBeats State.emitWrite State.emit nextReply joinReply
  cases bs with
  | nil => simp
  | cons b bs => cases rs <;> simp

theorem State.takeTxn_of_loading {s : State} (h : s.device = .loading) (t : SysTxn) :
    s.takeTxn t = { s with out := s.out ++ passTxn t } := by
  cases t with
  | write w =>
    simp only [State.takeTxn, State.takeBeats_of_loading h, Taken.pass_of_all, passTxn]
  | read r => simp [State.takeTxn, State.emit, passTxn]

theorem State.takeWaiting_of_loading : ∀ (ts : List SysTxn) {s : State},
    s.device = .loading → s.port.held = none →
      s.takeWaiting ts =
        { s with port := { held := none, waiting := [] }, out := s.out ++ ts.flatMap passTxn }
  | [], s, _, hp => by simp [State.takeWaiting, hp]
  | t :: ts, s, h, hp => by
    unfold State.takeWaiting
    rw [State.takeTxn_of_loading h, if_neg (by simp [hp])]
    refine (State.takeWaiting_of_loading ts (by exact h) (by exact hp)).trans ?_
    simp

/-- R150: all that the entry to LOADING does with a held write: its beats pass unmerged, and the
transactions that waited behind it pass as any do in LOADING. -/
theorem State.releaseUnmerged_eq {s : State} (h : s.device = .loading) :
    s.releaseUnmerged = { s with port := s.port.released, out := s.out ++ s.port.unmerged } := by
  unfold State.releaseUnmerged SysPort.released SysPort.unmerged
  cases hp : s.port.held with
  | none => simp
  | some w =>
    have hd : s.dropHeld.device = .loading := h
    simp only [State.takeBeats_of_loading hd, Taken.pass_of_all, State.resumePort]
    refine (State.takeWaiting_of_loading _ (by exact h) rfl).trans ?_
    simp [State.dropHeld]

/-- R47: the assembly after a merge, byte by byte. -/
theorem mergeLanes_getElem? (asm : List Byte) (lanes : List (Option Byte)) (i : Nat) :
    (mergeLanes asm lanes)[i]? =
      (asm[i]?).bind fun old => (lanes[i]?).map fun new => new.getD old := by
  unfold mergeLanes
  rw [List.getElem?_zipWith]
  cases asm[i]? <;> cases lanes[i]? <;> rfl

end Sys2Proof.Machine
end

