-- ==== Sys2Proof/Tests/Slice0.lean ====
section
/-! SUPPORT. Tests of single steps, their expected results from the spec's tables and worked examples
(each names its source), the smoke tests of `Instr.wf`, and for every obligation with hypotheses a
named witness that meets them. -/

section
open Sys2Proof Sys2Proof.Machine
set_option Elab.async false

namespace Sys2Proof.Tests

/-! ### Small states -/

/-- Whether a command is answered by a next state with this property. -/
def answers (o : Host.Outcome State Fault Refusal) (p : State → Bool) : Bool :=
  match o with
  | .next t => p t
  | .fault _ => false
  | .refused _ => false

/-- 13.1: the board's windows, field rate and report line. -/
def board : Conf :=
  { anchor := 0x60000000, flow := .hold, stall := 20
    decode := some { base0 := 0x20000000, base1 := 0x21000000, pitch := 7680, width := 1920
                     lines := 1080, interlaced := false }
    rate := some { n := 60000, d := 1001 }, reportLine := some 1000 }

/-- The part just ACTIVE under the board's configuration. -/
def air : State :=
  { State.reset with
    pins := { State.reset.pins with resetN := true }, device := .active
    loader := { status := .done, reason := none, bus := .idle, staging := [] }, conf := board }

/-- A command of slot 63 with tag 0x0200. -/
def cmd (code short : Nat) (w : List Word) : IntakeEntry :=
  { slot := 63
    command := { w0 := w.getD 0 0, w1 := w.getD 1 0, w2 := w.getD 2 0, w3 := w.getD 3 0
                 w4 := w.getD 4 0, w5 := w.getD 5 0
                 close := BitVec.ofNat 32 (code + 256 * short + 65536 * 0x200) } }

/-- The slots of a queue's commands, all IN_FLIGHT. -/
def flying (q : List IntakeEntry) : Store CommandSlot :=
  q.foldl (fun m e =>
    Store.put CommandSlot.initial m e.slot { CommandSlot.initial with inFlight := true }) []

/-- A state with these commands in its intake queue. -/
def queued (s : State) (q : List IntakeEntry) : State :=
  { s with intake := { s.intake with slots := flying q, queue := q } }

/-- The result code of the last result handed over. -/
def gave (t : State) (r : ResultCode) : Bool := t.own.writeBack.getLast?.any fun x => x.result == r

/-- Whether the part, with this command queued, answers it with this result and property. -/
def ran (s : State) (i : Instr) (e : IntakeEntry) (r : ResultCode) (p : State → Bool) : Bool :=
  answers (exec i (queued s [e])) fun t => gave t r && p t

/-- 2.7: the CRAWL form of lane 0, columns 100 to 739. -/
def form27 : Form := { kind := .crawl, top := 960, height := 64, left := 100, right := 739, style := 0 }

/-- A lane on air under the form of 2.7 with the motion of 1.8. -/
def lane18 (st : LaneState) : Lane :=
  { Lane.initial with
    state := st, form := form27, motion := { Motion.initial with speed := 600, fade := 4 } }

/-- The part with one lane replaced. -/
def withLane (n : Fin 4) (l : Lane) : State := air.setLane n l

/-- A placement of this start and width. -/
def place (start : Int) (width : Nat) : Placement :=
  { start := start, width := width, style := 0, env := Envelope.initial, lastEdge := 640
    noRepeat := false }

/-- A defined item. -/
def textItem : Item := { Item.undefined with defined := true, tag := 0x1024 }

/-- Items 1, 2 and 3: a repeating TEXT, a repeating QUOTE of slot 37 that is a marker, and a TEXT that
does not repeat. -/
def items123 : Store Item :=
  [(1, { textItem with repeats := true }),
   (2, { textItem with source := .quote 37, repeats := true, marker := true }),
   (3, textItem)]

/-- 3.7: a value of slot 37. -/
def value37 : QuoteValue :=
  { symbol := [0x41, 0x42, 0x5A, 0x58], price := 9998, change := -14, decimals := 2
    status := .normal, percent := true }

/-- A lane with three entries, one of them placed, 100 pixels in. -/
def strip : Lane :=
  { lane18 .running with fade := 256, offset := 25600, ring := [1, 2, 3], placed := [place 640 200] }

/-- Lane 0 on air with that strip, and the items in the store. -/
def onStrip : State := { withLane 0 strip with items := items123 }

/-- A busy part: lane 0 crawls with a placed text and a placed quote, lane 3 shows a page. -/
def busy : State :=
  { (onStrip.setLane 0 { strip with placed := [place 640 200, place 856 240] }).setLane 3
      { lane18 .running with
        form := { kind := .flip, top := 900, height := 40, left := 1440, right := 1919, style := 0 }
        ring := [4], placed := [{ place 0 228 with lastEdge := 480 }], dwellCount := 7 } with
    items := items123 ++ [(4, { textItem with repeats := true })]
    quotes := [(37, { QuoteSlot.initial with pend := some value37, shown := some value37 })] }

/-- A beat at an address with these words and enables. -/
def beat (addr : Nat) (w : List Word) (enables : BitVec 16) : Beat :=
  { index := BitVec.ofNat 28 (addr / 16), low := 0
    data := w.getD 3 0 ++ w.getD 2 0 ++ w.getD 1 0 ++ w.getD 0 0, enables := enables }

/-- The closing beat of slot 5 with code, and tag 0x0140 (9.7). -/
def closing5 (code : Nat) : Beat :=
  beat (0x60000000 + 32 * 5 + 16) [0, 0, 0, BitVec.ofNat 32 (code + 65536 * 0x140)] 0xF000

/-- Commands in slots 0 to `n - 1`, as in 9.7. -/
def slots (n : Nat) : List IntakeEntry := (List.range n).map fun i => { cmd 0x41 1 [] with slot := i }

/-- 9.7: a full queue, the write of slot 5 held. -/
def held97 : State :=
  { queued air (slots 64) with
    port := { held := some { size := 4, beats := [closing5 0x41], need := .intakeRoom, priorErr := false
                             replies := [] }
              waiting := [] } }

/-- The straps of 13.1. -/
def straps : Straps := { anchorSel := 2, flowSel := false }

/-- The bytes of an image that holds CONFIG and the end section alone, as 12.6 lays them out. -/
def image : List Byte :=
  [0xC3, 0x5A, 44, 0] ++ [0x01, 0, 36, 0] ++ [0x01, 0, 0, 0] ++ [0, 0, 0, 0x60] ++
    [0, 0, 0, 0x20] ++ [0, 0, 0, 0x21] ++ [0, 0x1E, 0, 0] ++ [0x80, 0x07, 0x38, 0x04] ++
    [0x60, 0xEA, 0xE9, 0x03] ++ [0xE8, 0x03, 0, 0] ++ [0, 0, 0, 0] ++ [0xFF, 0, 0, 0]

/-- The part in LOADING with these bytes received. -/
def loading (bus : BusPhase) (bytes : List Byte) : State :=
  { State.reset with
    pins := { State.reset.pins with resetN := true }
    loader := { status := .loading, reason := none, bus := bus, staging := bytes } }

/-! ### Well-formedness: an ill-formed command for each check -/

theorem test_wf_empty_write : (Instr.systemWrite { size := 4, beats := [], replies := [] }).wf = false := by
  decide
theorem test_wf_empty_read :
    (Instr.systemRead { addr := 0, len := 0, size := 4, data := [], reply := .okay }).wf = false := by
  decide
theorem test_wf_short_read :
    (Instr.systemRead { addr := 0, len := 1, size := 4, data := [1, 2, 3], reply := .okay }).wf = false := by
  decide
theorem test_wf_empty_scan :
    (Instr.scanRead 0 { len := 0, size := 4 } (Four.all false) []).wf = false := by
  decide
theorem test_wf_slot_2048 : (Instr.fieldStart false [.slot 2048]).wf = false := by decide
theorem test_wf_entry_48 : (Instr.holdExpiry 0 48).wf = false := by decide
theorem test_wf_good : (Instr.fieldStart true [.styles, .slot 2047, .clock]).wf = true := by decide

/-! ### Reset and the idle step -/

theorem test_no_word_spells_a_command : decodeTableWord 8 0x10 = none := rfl
theorem test_empty_queue_idles : step air = .next air := rfl

/-! ### Lane commands -/

/-- R3: the right column is raised to the left column plus 63. -/
theorem test_laneForm_clamps_right :
    ran air .laneForm (cmd 0x10 3 [0x0400, 0x002803C0, 0x00320064]) .ok (fun t =>
      (t.lane 3).form ==
        { kind := .crawl, top := 960, height := 40, left := 100, right := 163, style := 4 }) = true := by
  decide +kernel

/-- R6: a form that shares frame line 1007 with a lane on air is refused. -/
theorem test_laneForm_overlap :
    ran onStrip .laneForm (cmd 0x10 1 [0, 0x002803EF, 0x07000000]) .overlap (fun t =>
      t.lane 1 == Lane.initial) = true := by
  decide +kernel

/-- R4: speed above 8191, gap above 1023 and a dwell of 0 are clamped. -/
theorem test_laneMotion_clamps :
    ran air .laneMotion (cmd 0x11 0 [0x04002000, 0, 5]) .ok (fun t =>
      (t.lane 0).motion ==
        { speed := 8191, gap := 1023, dwell := 1, fade := 0, passLimit := 0, cueColumn := 0 }) = true := by
  decide +kernel

/-- R7: outside OFF the mark is set; in OFF the lane is accepted and unchanged. -/
theorem test_take_marks :
    ran onStrip .take (cmd 0x12 3 []) .ok (fun t => (t.lane 0).takeMark && !(t.lane 1).takeMark) = true := by
  decide +kernel

/-- 1.8: START brings a formed lane from OFF to ARMED; 8.4: with the latch set it is refused. -/
theorem test_start_arms :
    ran (withLane 1 (lane18 .off)) .start (cmd 0x13 2 []) .ok (fun t =>
      (t.lane 1).state == .armed && (t.lane 1).fade == 0) = true := by
  decide +kernel

/-- R2: a mask whose low four bits are 0 names no lane. -/
theorem test_start_no_lane : ran air .start (cmd 0x13 0xF0 []) .badArg (fun _ => true) = true := by
  decide +kernel

/-- 1.8: STOP FADE on the held lane freezes the motion and keeps g. -/
theorem test_stop_fade_held :
    ran (withLane 1 { lane18 .held with fade := 256, offset := 1200 }) .stop (cmd 0x14 2 [1]) .ok
      (fun t => (t.lane 1).state == .fadingOut && !(t.lane 1).motionOn && (t.lane 1).fade == 256 &&
        (t.lane 1).offset == 1200) = true := by
  decide +kernel

/-- 1.8: HOLD on the running lane. -/
theorem test_hold :
    ran (withLane 1 (lane18 .running)) .hold (cmd 0x15 2 []) .ok (fun t =>
      (t.lane 1).state == .held && (t.lane 1).resume == .running) = true := by
  decide +kernel

/-- R12: RESUME brings a held lane to its resume target; a running lane refuses. -/
theorem test_resume :
    ran (withLane 1 { lane18 .held with resume := .draining }) .resume (cmd 0x16 2 []) .ok (fun t =>
      (t.lane 1).state == .draining) = true := by
  decide +kernel

/-- 8.5, the break-in: RESTORE with KILL_N low is refused with LINE_ACTIVE. -/
theorem test_restore_line_active :
    ran { withLane 0 (lane18 .killed) with
          pins := { air.pins with killN := false }, cue := { air.cue with latch := true } }
      .restore (cmd 0x17 9 [1]) .lineActive (fun t => t.cue.latch && (t.lane 0).state == .killed) =
      true := by
  decide +kernel

/-- 8.5, the break-in: RESTORE 0x09 RUNNING brings the killed lane back at g 0. -/
theorem test_restore_running :
    ran { withLane 0 { lane18 .killed with fade := 256 } with cue := { air.cue with latch := true } }
      .restore (cmd 0x17 9 [1]) .ok (fun t =>
        !t.cue.latch && (t.lane 0).state == .running && (t.lane 0).fade == 0) = true := by
  decide +kernel

/-! ### Rings and items -/

/-- R23: NEXT puts the item at position p. -/
theorem test_enqueue_next :
    ran { onStrip with items := items123 ++ [(9, textItem)] } .enqueue (cmd 0x20 0 [0x00010009]) .ok
      (fun t => (t.lane 0).ring == [1, 9, 2, 3]) = true := by
  decide +kernel

/-- R23: an item of a ring is refused everywhere. -/
theorem test_enqueue_in_use :
    ran onStrip .enqueue (cmd 0x20 2 [3]) .inUse (fun t => (t.lane 2).ring == []) = true := by
  decide +kernel

/-- R24: a placed entry gets its no-repeat mark, an unplaced one leaves. -/
theorem test_dequeue_placed :
    ran onStrip .dequeue (cmd 0x21 0 [1]) .ok (fun t =>
      (t.lane 0).ring == [1, 2, 3] && (t.lane 0).placed.all fun p => p.noRepeat) = true := by
  decide +kernel
theorem test_dequeue_unplaced :
    ran onStrip .dequeue (cmd 0x21 0 [2]) .ok (fun t => (t.lane 0).ring == [1, 3]) = true := by
  decide +kernel

/-- R26. -/
theorem test_clear :
    ran (withLane 2 { Lane.initial with ring := [1, 2] }) .clear (cmd 0x22 2 []) .ok (fun t =>
      (t.lane 2).ring == []) = true := by
  decide +kernel

/-- 12.2: the fields of ITEM_DEFINE. -/
theorem test_itemDefine :
    ran air .itemDefine (cmd 0x30 0 [0x04010018, 0x03FF0025, 0x1024]) .ok (fun t =>
      t.item 24 ==
        { defined := true, source := .quote 37, override := none, repeats := true, marker := true
          cueOut := .set1, tag := 0x1024 }) = true := by
  decide +kernel

/-- R111. -/
theorem test_itemDrop_in_use :
    ran onStrip .itemDrop (cmd 0x31 0 [3]) .inUse (fun t => (t.item 3).defined) = true := by
  decide +kernel

/-- R115: the upper half holds codes 12 to 23, a count above 24 is taken as 24. -/
theorem test_textSegment_upper :
    ran air .textSegment (cmd 0x32 0 [0x1E010FFF, 0xFFFF, 0x44434241]) .ok (fun t =>
      (t.segment 4095).count == 24 && (t.segment 4095).next == none &&
        (t.segment 4095).codes.drop 12 == [0x41, 0x42, 0x43, 0x44, 0, 0, 0, 0, 0, 0, 0, 0]) = true := by
  decide +kernel

/-- 12.2: STYLE_COLORS. -/
theorem test_styleColors :
    ran air .styleColors (cmd 0x40 31 [0x3AC80200]) .ok (fun t =>
      (t.pendingStyle 31).colors.fill == { y := 940, cb := 512, cr := 512 } &&
        t.style 31 == Style.builtIn) = true := by
  decide +kernel

/-- 7.5: a changed minimum width of a style in use is refused; another hold is taken as pending. -/
theorem test_styleForm_in_use :
    ran onStrip .styleForm (cmd 0x41 0 [0, 0, 0x04000100, 240, 0, 30]) .inUse (fun t =>
      t.pendingStyle 0 == Style.builtIn) = true := by
  decide +kernel
theorem test_styleForm_hold :
    ran onStrip .styleForm (cmd 0x41 0 [0, 0, 0x04000100, 0, 0, 45]) .ok (fun t =>
      (t.pendingStyle 0).flash.hold == 45 && (t.style 0).flash.hold == 1) = true := by
  decide +kernel

/-! ### Clock, schedule, cue lines, events -/

/-- 8.2, the market open: CLOCK_SET 09:29:50. -/
theorem test_clockSet :
    ran { air with clock := { air.clock with acc := 300 } } .clockSet (cmd 0x50 0 [0x00092950]) .ok
      (fun t => t.clock == { time := { hours := 0x09, minutes := 0x29, seconds := 0x50 }, acc := 0 }) =
      true := by
  decide +kernel
/-- R125. -/
theorem test_clockSet_hour_24 :
    ran air .clockSet (cmd 0x50 0 [0x00240000]) .badArg (fun t => t.clock == air.clock) = true := by
  decide +kernel

/-- 13.3: entry 3, 09:30:00, ONCE, START, lanes 0 and 1. -/
theorem test_scheduleSet :
    ran air .scheduleSet (cmd 0x51 3 [0x00093000, 0x00030000]) .ok (fun t =>
      t.schedEntry 3 ==
        { armed := true, time := { hours := 0x09, minutes := 0x30, seconds := 0 }, daily := false
          action := .lane .start, mask := 3, arg := 0 }) = true := by
  decide +kernel

/-- R127. -/
theorem test_scheduleClear :
    ran { air with schedule := [(3, { SchedEntry.initial with armed := true }),
                                (4, { SchedEntry.initial with armed := true })] }
      .scheduleClear (cmd 0x52 0 [8]) .ok (fun t =>
        !(t.schedEntry 3).armed && (t.schedEntry 4).armed) = true := by
  decide +kernel

/-- 13.3: input 2, filter on, RISE, CAPTURE, lane 0. -/
theorem test_cueSet :
    ran air .cueSet (cmd 0x53 2 [0x01010001]) .ok (fun t =>
      t.cue.inputs.e2 ==
        { CueInput.initial with filter := true, edge := .rise, action := .capture, mask := 1 }) =
      true := by
  decide +kernel

/-- R136: CUEOUT0 toggles, CUEOUT1 keeps. -/
theorem test_cueoutLevel :
    ran air .cueoutLevel (cmd 0x54 0 [3]) .ok (fun t => t.cue.out0 && !t.cue.out1) = true := by
  decide +kernel

/-- 13.3: EVENT_MASK, selector 0x7FC3, fill 1. -/
theorem test_eventMask :
    ran air .eventMask (cmd 0x60 0 [0x7FC3, 1]) .ok (fun t => t.rep.mask == 0x7FC3) = true := by
  decide +kernel

/-- 13.6: EVENT_ACK of CUE_CAPTURE2 clears the bit and the record's valid flag; ATTN falls. -/
theorem test_eventAck :
    ran { air with
          rep := { air.rep with events := 0x2000, mask := 0x7FC3 }
          cue := { air.cue with inputs := { air.cue.inputs with
            e2 := { CueInput.initial with capture := { Capture.initial with valid := true } } } } }
      .eventAck (cmd 0x61 0 [0x2000]) .ok (fun t =>
        !t.attn && t.rep.events == 0 && !t.cue.inputs.e2.capture.valid) = true := by
  decide +kernel

/-! ### REINIT, RELOAD -/

/-- R170. -/
theorem test_reinit :
    ran { busy with rep := { busy.rep with events := 0x2000, mask := 0x7FC3, count := 31 } } .reinit
      (cmd 0x70 0 []) .ok (fun t =>
        t.lanes == Four.all Lane.initial && t.quotes == [] && t.rep.mask == 0 && t.rep.count == 31 &&
          t.conf == board) = true := by
  decide +kernel

/-- R171: RELOAD with a lane on air is refused. -/
theorem test_reload_refused :
    ran onStrip .reload (cmd 0x71 0 []) .badState (fun t => t.device == .active) = true := by
  decide +kernel
/-- R150: alone in the queue it enters LOADING and stays at the head. -/
theorem test_reload_enters :
    answers (exec .reload (queued air [cmd 0x71 0 []])) (fun t =>
      t.device == .loading && t.loader.bus == .waiting && t.intake.queue.length == 1 &&
        t.conf.anchor == 0x60000000) = true := by
  decide +kernel

/-- R148. -/
theorem test_badCommand :
    ran air .badCommand (cmd 0x72 0 []) .badCommand (fun t => t.rep.events == 1) = true := by
  decide +kernel

/-- R150: the command behind the RELOAD is answered ABORTED. -/
theorem test_abortAnswer :
    answers (exec .abortAnswer
      { queued air [cmd 0x71 0 [], { cmd 0x41 1 [] with slot := 4 }] with
        intake := { (queued air [cmd 0x71 0 [], { cmd 0x41 1 [] with slot := 4 }]).intake with
          reload := some .aborting } }) (fun t =>
      gave t .aborted && t.device == .loading && t.intake.queue == [cmd 0x71 0 []]) = true := by
  decide +kernel

/-- A write that waits for the write-back queue, whose entry has just drained, with a read behind it. -/
abbrev heldResult : SysPort :=
  { held := some { size := 4, beats := [closing5 0x41], need := .resultRoom, priorErr := false
                   replies := [.error] }
    waiting := [.read { addr := 0, len := 1, size := 4, data := [1, 2, 3, 4], reply := .okay }] }

/-- What the port drives when that write is released unmerged. -/
abbrev heldResultOut : List PortEvent :=
  [.memWrite .system 4 [closing5 0x41], .sysWriteResp .error, .memRead .system 0 1 4,
   .sysReadResp [1, 2, 3, 4] .okay]

/-- R150: a write held at the entry to LOADING passes unmerged; no command is formed and no overrun
counted. Here the last ABORTED result takes the drained entry. -/
theorem test_abort_releases_held :
    answers (exec .abortAnswer
      { queued air [cmd 0x71 0 [], { cmd 0x41 1 [] with slot := 4 }] with
        intake := { (queued air [cmd 0x71 0 [], { cmd 0x41 1 [] with slot := 4 }]).intake with
          reload := some .aborting }
        port := heldResult }) (fun t =>
      gave t .aborted && t.device == .loading && t.port.held == none && t.out == heldResultOut &&
        t.slot 5 == CommandSlot.initial && t.intake.queue == [cmd 0x71 0 []] &&
        t.intake.overrun == 0) = true := by
  decide +kernel

/-- R150: the same where a RELOAD alone in the queue is executed before the held write. -/
theorem test_reload_releases_held :
    answers (exec .reload { queued air [cmd 0x71 0 []] with port := heldResult }) (fun t =>
      t.device == .loading && t.port.held == none && t.out == heldResultOut &&
        t.slot 5 == CommandSlot.initial && t.own.writeBack == []) = true := by
  decide +kernel

/-! ### The ports -/

/-- 3.7: the first beat of slot 37 commits 9990, -22. -/
theorem test_systemWrite_commits :
    answers (exec (.systemWrite { size := 4, beats :=
      [beat (0x60000000 + 0x8000 + 16 * 37) [0x585A4241, 0, 9990, 0x22FFFFEA] 0xFFFF], replies := [] })
      air) (fun t =>
        (t.quote 37).pend == some { value37 with price := 9990, change := -22 } &&
          (t.quote 37).shown == none && t.out.length == 2) = true := by
  decide +kernel

/-- 9.7: a closing write that meets the full queue is held. -/
theorem test_systemWrite_held :
    answers (exec (.systemWrite { size := 4, beats := [closing5 0x41], replies := [] })
        (queued air (slots 64)))
      (fun t => t.port.held.isSome && t.out == [] && t.intake.queue.length == 64) = true := by
  decide +kernel

/-- R153: the address, length and size pass through, memory's error too. -/
theorem test_systemRead :
    answers (exec (.systemRead
        { addr := 0x1004, len := 1, size := 2, data := [1, 2, 3, 4], reply := .error }) air)
      (fun t => t.out == [.memRead .system 0x1004 1 2, .sysReadResp [1, 2, 3, 4] .error]) = true := by
  decide +kernel

/-- 9.7: after slot 0's completion the held beat is decided: SLOT_BUSY with tag 0x0140. -/
theorem test_heldWriteRelease :
    answers (exec .heldWriteRelease
      { held97 with intake := { held97.intake with queue := (slots 64).tail } }) (fun t =>
        gave t .slotBusy && t.own.writeBack.all (fun r => r.slot == 5 && r.tag == 0x140) &&
          t.port.held == none && t.intake.queue.length == 63) = true := by
  decide +kernel

/-- 9.7: had the limit expired first, the overrun count is 1 with tag 0x0140, and OVERRUN is set. -/
theorem test_stallLimitExpiry :
    answers (exec .stallLimitExpiry held97) (fun t =>
      t.intake.overrun == 1 && t.intake.lastTag == 0x140 && t.rep.events == 2 &&
        t.own.writeBack == [] && t.port.held == none) = true := by
  decide +kernel

/-- 12.2, R149: the result word of slot 5: code 0x41, SLOT_BUSY 0x0A, tag 0x0140, in word 6. -/
theorem test_resultWrite :
    answers (exec (.resultWrite false false)
      { air with own := { air.own with writeBack :=
          [{ slot := 5, code := 0x41, result := .slotBusy, tag := 0x140 }] } }) (fun t =>
      t.out == [.memWrite .own 4 [beat (0x60000000 + 32 * 5 + 16) [0, 0, 0x01400A41, 0] 0x0F00]] &&
        t.own.headWritten && t.own.writeBack.length == 1) = true := by
  decide +kernel

/-- R156: an error response removes the entry all the same. -/
theorem test_writeBackDrain :
    answers (exec (.writeBackDrain .error)
      { air with own := { air.own with headWritten := true, writeBack :=
          [{ slot := 5, code := 0x41, result := .ok, tag := 0x140 }] } }) (fun t =>
      t.own.writeBack == [] && !t.own.headWritten) = true := by
  decide +kernel

/-- 12.5: the first beat of a report holds the field count and the device state. -/
theorem test_reportWrite :
    answers (exec (.reportWrite false false 0)
      { air with own := { air.own with reports :=
          [{ anchor := 0x60000000, next := 0, ahead := 0
             words := { air with rep := { air.rep with count := 31 } }.reportWords }] } }) (fun t =>
      t.out == [.memWrite .own 4 [beat 0x60000800 [31, 0x00010002, 1, 0] 0xFFFF]]) = true := by
  decide +kernel

/-- 13.6: the filtered input 2 accepts the level at the third line start and captures item 2. -/
theorem test_scanRead_captures :
    answers (exec (.scanRead (BitVec.ofNat 32 (0x20000000 + 102 * 7680)) { len := 1, size := 4 }
        ⟨false, false, true, false⟩ [])
      { onStrip with
        rep := { air.rep with count := 1420, taken := true }
        lanes := { onStrip.lanes with
          e0 := { strip with offset := 153600, motion := { strip.motion with cueColumn := 100 } } }
        cue := { air.cue with
          lineReg := some 101
          inputs := { air.cue.inputs with
            e2 := { CueInput.initial with filter := true, action := .capture, mask := 1, last := true
                                          run := 2 } } } }) (fun t =>
      t.cue.inputs.e2.capture ==
          { valid := true, overwritten := false, lane := 0, item := some 1, tag := some 0x1024
            count := 1420 } &&
        t.rep.events == 0x2000 && t.cue.lineReg == some 102) = true := by
  decide +kernel

/-- 6.7: lane 2, its strip and the entry's style in the example of one beat. -/
def state67 : State :=
  let glyph : Glyph :=
    { advance := 13, width := 12, nibbles := List.replicate (28 * 12 + 4) 0 ++ [12, 6] }
  let plain (a : Nat) : Glyph := { advance := a, width := 0, nibbles := [] }
  let font : Font :=
    { height := 40, defaultAdvance := 10
      glyphs := [(0, plain 10), (0x41, plain 14), (0x42, plain 12), (0x58, glyph), (0x5A, plain 12)] }
  let style : Style :=
    { Style.builtIn with
      colors := { Style.builtIn.colors with
        fill := { y := 100, cb := 540, cr := 480 }, down := { y := 900, cb := 512, cr := 512 } }
      flash := { Style.builtIn.flash with alpha := 192, legalize := true }
      width := { Style.builtIn.width with pad := 8, percent := true } }
  { air with
    fonts := Four.all font
    styles := { air.styles with cur := [(0, style)] }
    items := [(12, { textItem with source := .quote 12 })]
    quotes := [(12, { QuoteSlot.initial with
      shown := some { value37 with price := 18734, change := -412 } })]
    lanes := { air.lanes with
      e2 := { lane18 .running with
        form := { kind := .crawl, top := 960, height := 64, left := 0, right := 1919, style := 0 }
        fade := 256, offset := 1600064, ring := [12], placed := [place 6600 257] } } }

/-- 6.7: the word at column 400 becomes (643, 526, 499), its bits 31..30 kept. -/
theorem test_scanBeat_blends :
    answers (exec (.scanBeat 0x2075364 ⟨0x990961C2, 0, 0, 0⟩ .okay) state67) (fun t =>
      match t.out with
      | [.scanData w .okay] => w.e0 == 0xA83839F3
      | _ => false) = true := by
  decide +kernel

/-- R93. -/
theorem test_scanWrite :
    answers (exec (.scanWrite 0x20000000) air) (fun t => t == { air with out := [.scanWriteError] }) =
      true := by
  decide +kernel

/-! ### The field start and the events in it -/

/-- 2.7, field start 1: A is placed at 640 and the lane enters RUNNING without an advance. -/
theorem test_fieldStart_begins :
    answers (exec (.fieldStart false [.lane 0, .clock])
      { withLane 0 { lane18 .armed with ring := [1] } with
        items := items123, segments := [(0, { Segment.empty with count := 3 })] }) (fun t =>
      (t.lane 0).state == .running && (t.lane 0).fade == 64 && (t.lane 0).offset == 0 &&
        (t.lane 0).placed.map (fun p => (p.start, p.width)) == [((640 : Int), 20)] &&
        t.clock.acc == 1001 && t.rep.count == 1) = true := by
  decide +kernel

/-- 13.5: a value that a placed entry has no room for is held back at the field start. -/
theorem test_fieldStart_blocks_transfer :
    answers (exec (.fieldStart false [])
      { onStrip with
        lanes := { onStrip.lanes with e0 := { strip with ring := [2], placed := [place 640 20] } }
        quotes := [(37, { QuoteSlot.initial with pend := some value37, shown := none })] }) (fun t =>
      (t.quote 37).pend == some value37 && (t.quote 37).shown == none) = true := by
  decide +kernel

/-- 2.7, field start 231: the pass counter reaches its limit of 2, and the lane drains. -/
theorem test_passLimitReached :
    answers (exec (.passLimitReached 0)
      { onStrip with
        lanes := { onStrip.lanes with
          e0 := { strip with
            motion := { strip.motion with passLimit := 2 }, offset := 256 * 1840, passCount := 1
            ring := [2, 1], placed := [place 1688 150, place 2304 200] } } }) (fun t =>
      (t.lane 0).state == .draining && (t.lane 0).passCount == 0 && (t.lane 0).ring == [1, 2] &&
        (t.lane 0).placed == [place 2304 200]) = true := by
  decide +kernel

/-- R42: in HELD the marker page of a FLIP lane is not counted, and stays up with the pass uncounted. -/
theorem test_passLimitReached_held_page :
    answers (exec (.passLimitReached 3)
      { busy with lanes := { busy.lanes with
          e3 := { busy.lanes.e3 with
            state := .held, ring := [2], dwellCount := 65535, passCount := 1
            motion := { Motion.initial with dwell := 1, passLimit := 2 } } } }) (fun t =>
      t.lanes == { busy.lanes with
        e3 := { busy.lanes.e3 with
          state := .held, ring := [2], dwellCount := 65535, passCount := 1
          motion := { Motion.initial with dwell := 1, passLimit := 2 } } }) = true := by
  decide +kernel

/-- 2.8, field start 251: the counter reaches 250, E retires and is placed again at 0. -/
theorem test_pageEnd :
    answers (exec (.pageEnd 3)
      { busy with lanes := { busy.lanes with
          e3 := { busy.lanes.e3 with
            ring := [2], dwellCount := 249, motion := { Motion.initial with dwell := 250 } }
          e0 := Lane.initial } }) (fun t =>
      (t.lane 3).dwellCount == 0 && (t.lane 3).ring == [2] &&
        (t.lane 3).placed.map (fun p => p.start) == [0]) = true := by
  decide +kernel

/-- 5.6, step 30: the hold runs out in SUSTAIN at 34816. -/
theorem test_holdExpiry :
    answers (exec (.holdExpiry 0 0)
      (withLane 0 { strip with placed := [{ place 640 200 with
        env := { phase := .sustain, level := 34816, direction := .up, hold := 1 } }] })) (fun t =>
      (t.lane 0).placed.map (fun p => p.env) ==
        [{ phase := .release, level := 34816, direction := .up, hold := 0 }]) = true := by
  decide +kernel

/-- 1.8, field start 15: g falls from 64 to 0 and the lane enters OFF, its ring kept. -/
theorem test_fadeOutEnd :
    answers (exec (.fadeOutEnd 1)
      (withLane 1 { lane18 .fadingOut with fade := 64, offset := 6000, ring := [1] })) (fun t =>
      (t.lane 1).state == .off && (t.lane 1).offset == 0 && (t.lane 1).ring == [1] &&
        t.rep.events == 0x80) = true := by
  decide +kernel

/-- R124: 23:59:59 is followed by 00:00:00. -/
theorem test_secondTick_midnight :
    answers (exec .secondTick
      { air with clock :=
          { time := { hours := 0x23, minutes := 0x59, seconds := 0x59 }, acc := 59000 } }) (fun t =>
      t.clock == { time := TimeOfDay.midnight, acc := 1 }) = true := by
  decide +kernel

/-- 13.4: the tick to 09:30:00 fires entry 3, which arms lane 0 and disarms. -/
theorem test_secondTick_fires :
    answers (exec .secondTick
      { withLane 0 (lane18 .off) with
        clock := { time := { hours := 0x09, minutes := 0x29, seconds := 0x59 }, acc := 59000 }
        schedule := [(3, { SchedEntry.initial with
          armed := true, time := { hours := 0x09, minutes := 0x30, seconds := 0 }, mask := 1 })] })
      (fun t => (t.lane 0).state == .armed && !(t.schedEntry 3).armed && t.rep.events == 0x8000) =
      true := by
  decide +kernel

/-! ### Pins and loader -/

/-- 8.5, the break-in: RUNNING to KILLED, ARMED to OFF, FADING_OUT to KILLED, CUEOUT1 low, BREAK_IN. -/
theorem test_killLatchSet :
    answers (exec .killLatchSet
      { air with
        lanes := ⟨{ lane18 .running with fade := 256 }, Lane.initial, lane18 .armed,
                  { lane18 .fadingOut with fade := 160 }⟩
        cue := { air.cue with out1 := true } }) (fun t =>
      t.cue.latch && !t.cue.out1 && t.rep.events == 0x400 &&
        t.lanes.toList.map (fun l => (l.state, l.fade)) ==
          [(.killed, 256), (.off, 0), (.off, 0), (.killed, 160)]) = true := by
  decide +kernel

/-- 8.5, the break-in: KILL_N rises, the latch stays set. -/
theorem test_killNRise :
    answers (exec .killNRise
      { air with pins := { air.pins with killN := false }, cue := { air.cue with latch := true } })
      (fun t => t.cue.latch && t.pins.killN) = true := by
  decide +kernel

/-- R166. -/
theorem test_powerOnReset :
    answers (exec .powerOnReset busy) (fun t =>
      t.lanes == Four.all Lane.initial && t.conf.decode == none && t.out == [.i2cRelease]) = true := by
  decide +kernel

/-- 13.2: with ANCHOR_SEL 2 the anchor is 0x4200_0000, the device is in LOADING. -/
theorem test_resetRelease :
    answers (exec (.resetRelease straps true) State.reset) (fun t =>
      t.conf.anchor == 0x42000000 && t.device == .loading && t.loader.bus == .waiting && !t.attn) =
      true := by
  decide +kernel

/-- R167: the loader starts at the first byte it has not received. -/
theorem test_busFreeStart :
    answers (exec .busFreeStart (loading .waiting [0xC3, 0x5A])) (fun t =>
      t.out == [.i2cStart 2] && t.loader.bus == .addressing) = true := by
  decide +kernel

/-- 13.2: the last byte brings ACTIVE, the image's anchor and LOAD_DONE. -/
theorem test_image_completes :
    answers (exec (.imageByteReceived 0 straps) (loading .reading image.dropLast)) (fun t =>
      t.device == .active && t.conf == board && t.rep.events == 0x20000 &&
        t.own.reports.length == 1 && !t.attn) = true := by
  decide +kernel

/-- R168: a first byte other than 0xC3 is a BLANK image. -/
theorem test_image_blank :
    answers (exec (.imageByteReceived 0xFF straps) (loading .addressing [])) (fun t =>
      t.device == .unconfigured && t.loader.reason == some .blank && t.attn) = true := by
  decide +kernel

/-- R168: the low byte of the length shows that a CONFIG section is not of 36 bytes. -/
theorem test_image_config_length :
    answers (exec (.imageByteReceived 35 straps) (loading .reading (image.take 6))) (fun t =>
      t.device == .unconfigured && t.loader.reason == some .format) = true ∧
    answers (exec (.imageByteReceived 36 straps) (loading .reading (image.take 6))) (fun t =>
      t.device == .loading) = true := by
  decide +kernel

/-- R168, notes/assumptions/14.md: an END section that is not the last fails at its type byte. -/
theorem test_image_end_not_last :
    answers (exec (.imageByteReceived 0xFF straps)
      (loading .reading ([0xC3, 0x5A, 48, 0] ++ (image.drop 4).take 40))) (fun t =>
        t.device == .unconfigured && t.loader.reason == some .format) = true := by
  decide +kernel

/-- R168: an image whose length leaves no room for CONFIG and END; a STYLE section that ends with the
image, where no END follows, shown by the low byte of its length. -/
theorem test_image_no_room_for_end :
    answers (exec (.imageByteReceived 0 straps) (loading .reading [0xC3, 0x5A, 43])) (fun t =>
      t.loader.reason == some .format) = true ∧
    answers (exec (.imageByteReceived 48 straps)
      (loading .reading ([0xC3, 0x5A, 92, 0] ++ (image.drop 4).take 40 ++ [0x02, 0]))) (fun t =>
        t.device == .unconfigured && t.loader.reason == some .format) = true ∧
    answers (exec (.imageByteReceived 48 straps)
      (loading .reading ([0xC3, 0x5A, 96, 0] ++ (image.drop 4).take 40 ++ [0x02, 0]))) (fun t =>
        t.device == .loading) = true := by
  decide +kernel

/-- R168: a whole pitch below four times the least width, 256, fails with its last byte. -/
theorem test_image_pitch_192 :
    answers (exec (.imageByteReceived 0 straps)
      (loading .reading (image.take 24 ++ [0xC0, 0, 0]))) (fun t =>
        t.device == .unconfigured && t.loader.reason == some .format) = true ∧
    answers (exec (.imageByteReceived 0 straps)
      (loading .reading (image.take 24 ++ [0, 1, 0]))) (fun t => t.device == .loading) = true := by
  decide +kernel

/-- R168, R174: the width byte shows that the one glyph record left over-runs its section. -/
theorem test_glyph_width_byte :
    scanGlyphs 8 4 1 20 [] [] [0x41, 4, 5] = .fail .format ∧
      scanGlyphs 8 4 1 20 [] [] [0x41, 4, 4] = .more := by
  decide +kernel

/-- 12.6: two records of height 9 take 4 bytes and 5, 9, 14 ... more each: 8, 13 or 17 bytes, not 9. -/
theorem test_recordsFit :
    recordsFit 9 2 8 = true ∧ recordsFit 9 2 13 = true ∧ recordsFit 9 2 17 = true ∧
      recordsFit 9 2 9 = false := by
  decide +kernel

/-- R167. -/
theorem test_noDevice :
    answers (exec (.noDevice straps) (loading .addressing [])) (fun t =>
      t.loader.reason == some .noDevice && t.conf.anchor == 0x42000000) = true := by
  decide +kernel
theorem test_arbitrationLost :
    answers (exec .arbitrationLost (loading .reading [0xC3])) (fun t =>
      t.loader.bus == .waiting && t.loader.staging == [0xC3] && t.out == [.i2cRelease]) = true := by
  decide +kernel
theorem test_busTimeout :
    answers (exec (.busTimeout straps) (loading .waiting [0xC3])) (fun t =>
      t.loader.reason == some .busTimeout && t.device == .unconfigured && t.out == [.i2cRelease]) =
      true := by
  decide +kernel

/-! ### The formatter (4.6) -/

/-- 4.6, the first case: ABZX 187.34, falling 4.12, (-2.15%). -/
theorem test_quoteText :
    quoteText { value37 with price := 18734, change := -412 } false true =
      [0x41, 0x42, 0x5A, 0x58, 0x20, 0x31, 0x38, 0x37, 0x2E, 0x33, 0x34, 0x20, 0x1F, 0x2D, 0x34, 0x2E,
       0x31, 0x32, 0x20, 0x28, 0x2D, 0x32, 0x2E, 0x31, 0x35, 0x25, 0x29] := by
  decide +kernel

/-- 4.6, the second edge row: -2,147,483,648, flat arrow, 0. -/
theorem test_quoteText_lowest :
    quoteText { value37 with symbol := [], price := -2147483648, change := 0, decimals := 0 } true true =
      [0x2D, 0x32, 0x2C, 0x31, 0x34, 0x37, 0x2C, 0x34, 0x38, 0x33, 0x2C, 0x36, 0x34, 0x38, 0x20, 0x1D,
       0x30] := by
  decide +kernel

/-- 4.6, the edge rows' percent figures: saturation, and a half rounded away from zero. -/
theorem test_percentFigure :
    percentFigure 4990 10 = 99999 ∧ percentFigure 1 20000 = 1 ∧ percentFigure (-1) 20000 = -1 ∧
      percentFigure 8901 1225666 = 73 ∧ percentFigure 4 999996 = 0 := by
  decide +kernel

/-! ### Witnesses: the hypotheses of each obligation met by a concrete state and operands -/

/-- The part with this command at the head of its intake queue. -/
abbrev head (s : State) (code short : Nat) (w : List Word) : State := queued s [cmd code short w]

/-- The lane number of a command's short argument is the last lane's, or the first number that is none. -/
abbrev lastLane (code : Nat) : Prop :=
  (head onStrip code 3 []).Executes (cmd code 3 []) code ∧ bits (cmd code 3 []).command.close 8 8 = 3 ∧
  (head onStrip code 4 []).Executes (cmd code 4 []) code ∧ 4 ≤ bits (cmd code 4 []).command.close 8 8

/-- A queue of two; a code that names no command. -/
theorem witness_CompletionAndBadCommand :
    (queued air (slots 2)).intake.queue = { cmd 0x41 1 [] with slot := 0 } :: (slots 2).tail ∧
      Store.wf CommandSlot.initial (queued air (slots 2)).intake.slots = true ∧
    (head air 0x72 0 []).Executes (cmd 0x72 0 []) 0x72 ∧ 0x72 ∉ commandCodes := by
  decide +kernel

theorem witness_MaskCommands :
    (head air 0x12 15 []).Executes (cmd 0x12 15 []) 0x12 ∧
    (head air 0x13 1 []).Executes (cmd 0x13 1 []) 0x13 ∧
    ((head air 0x14 8 [0]).Executes (cmd 0x14 8 [0]) 0x14 ∧ bits (cmd 0x14 8 [0]).command.w0 0 8 = 0) ∧
    ((head air 0x14 8 [1]).Executes (cmd 0x14 8 [1]) 0x14 ∧ bits (cmd 0x14 8 [1]).command.w0 0 8 = 1) ∧
    (head air 0x15 0 []).Executes (cmd 0x15 0 []) 0x15 ∧
    (head air 0x16 6 []).Executes (cmd 0x16 6 []) 0x16 ∧
    (head air 0x14 8 [2]).Executes (cmd 0x14 8 [2]) 0x14 ∧
    2 ≤ bits (cmd 0x14 8 [2]).command.w0 0 8 := by
  decide +kernel

theorem witness_LaneParameterCommands :
    lastLane 0x10 ∧ (head onStrip 0x10 3 []).conf.decode = board.decode ∧ board.decode.isSome = true ∧
      lastLane 0x11 := by
  decide +kernel
theorem witness_RingCommands : lastLane 0x20 ∧ lastLane 0x21 := by decide +kernel
theorem witness_ClearCommand : lastLane 0x22 := by decide +kernel
theorem witness_CueSetCommand : lastLane 0x53 := by decide +kernel

/-- A command with this code, at the head of the queue of the part on air, is executed. -/
abbrev taken (code : Nat) : Prop := (head onStrip code 1 []).Executes (cmd code 1 []) code

theorem witness_ItemDropCommand : taken 0x31 := by decide +kernel
theorem witness_StyleTableCommands :
    taken 0x40 ∧ taken 0x41 ∧ ∃ s : State, Store.wf Style.builtIn s.styles.cur = true :=
  ⟨by decide +kernel, by decide +kernel, air, by decide +kernel⟩
theorem witness_ClockAndScheduleCommands : taken 0x50 ∧ taken 0x51 ∧ taken 0x52 := by decide +kernel
theorem witness_CueoutAndRestoreCommands : taken 0x54 ∧ taken 0x17 := by decide +kernel
theorem witness_EventAckCommand : taken 0x61 := by decide +kernel
theorem witness_ReinitCommand : taken 0x70 := by decide +kernel

/-- The last segment; the next number; a segment that the placed item 1 shows. -/
theorem witness_ItemAndTextCommands :
    taken 0x30 ∧
    (head onStrip 0x32 0 [0xFFF]).Executes (cmd 0x32 0 [0xFFF]) 0x32 ∧
    bits (cmd 0x32 0 [0xFFF]).command.w0 0 16 = 4095 ∧
    (head onStrip 0x32 0 [0x1000]).Executes (cmd 0x32 0 [0x1000]) 0x32 ∧
    4095 < bits (cmd 0x32 0 [0x1000]).command.w0 0 16 ∧
    (head onStrip 0x32 0 [0]).Executes (cmd 0x32 0 [0]) 0x32 ∧
    (1, place 640 200) ∈ (onStrip.lane 0).entries ∧ (onStrip.item 1).source = .text 0 ∧
    0 ∈ onStrip.textSegments 0 := by
  decide +kernel

theorem witness_EventMaskCommand :
    (head air 0x60 0 [0x7FC3, 1]).Executes (cmd 0x60 0 [0x7FC3, 1]) 0x60 ∧
    (cmd 0x60 0 [0x7FC3, 1]).command.w1.toNat < 2 ∧
    (head air 0x60 0 [0x7FC3, 2]).Executes (cmd 0x60 0 [0x7FC3, 2]) 0x60 ∧
    2 ≤ (cmd 0x60 0 [0x7FC3, 2]).command.w1.toNat := by
  decide +kernel

/-- The queue of a RELOAD with another command behind it. -/
abbrev reloadPair : List IntakeEntry := [cmd 0x71 0 [], { cmd 0x41 1 [] with slot := 4 }]

/-- Refused with a lane on air; accepted with a command behind it; accepted alone, with a write held and
without. -/
theorem witness_ReloadCommand :
    (∀ s ∈ [head onStrip 0x71 0 [], head air 0x71 0 [], queued air reloadPair,
        { head air 0x71 0 [] with port := heldResult }],
      s.intake.queue.head? = some (cmd 0x71 0 []) ∧ (cmd 0x71 0 []).command.code = 0x71 ∧
      s.pins.resetN = true ∧ s.device ≠ .loading ∧ s.intake.reload = none ∧
      s.own.writeBack.length < 16 ∧ s.heldFirst = false) ∧
    ((head onStrip 0x71 0 []).lane 0).state ≠ .off ∧ (∀ n : Fin 4, (air.lane n).state = .off) := by
  decide +kernel

theorem witness_QuoteWrite :
    air.OnAir ∧ air.PortFree ∧
      (beat (0x60000000 + 0x8000 + 16 * 2047) [] 0xF000).addr =
        air.conf.anchor.toNat + 0x8000 + 16 * 2047 ∧
      (List.replicate 16 (0x20 : Byte)).length = 16 := by
  decide +kernel

/-- The state after a write of these beats, where there is one. -/
def afterWrite (s : State) (beats : List Beat) : Option State :=
  match exec (.systemWrite { size := 4, beats := beats, replies := [] }) s with
  | .next t => some t
  | .fault _ => none
  | .refused _ => none

/-- The last lower half; the last upper half without word 7; the last quote slot out of ACTIVE; the
boundaries of what no block watches; LOADING; a transaction with no beat held, the first, the second. -/
theorem witness_WritesPass :
    (air.pins.resetN = true ∧ air.PortFree ∧ air.device ≠ .loading) ∧
    (beat (0x60000000 + 32 * 63) [] 0xFFFF).addr = air.conf.anchor.toNat + 32 * 63 ∧
    (beat (0x60000000 + 32 * 63 + 16) [] 0x0FFF).addr = air.conf.anchor.toNat + 32 * 63 + 16 ∧
    (∀ j, 12 ≤ j → j < 16 →
      (beat (0x60000000 + 32 * 63 + 16) [] 0x0FFF).enables.getLsbD j = false) ∧
    ((loading .waiting []).pins.resetN = true ∧ (loading .waiting []).PortFree ∧
      (loading .waiting []).device = .loading ∧
      (beat (0x40000000 + 0x8000 + 16 * 2047) [] 0xFFFF).addr =
        (loading .waiting []).conf.anchor.toNat + 0x8000 + 16 * 2047) ∧
    (∀ a ∈ [0x800, 0x7FF0],
      air.conf.anchor.toNat + 0x800 ≤ (beat (0x60000000 + a) [] 0).addr ∧
      (beat (0x60000000 + a) [] 0).addr < air.conf.anchor.toNat + 0x8000) ∧
    air.conf.anchor.toNat + 0x10000 ≤ (beat 0x60010000 [] 0).addr ∧
    (beat (0x60000000 - 16) [] 0).addr < air.conf.anchor.toNat ∧
    (afterWrite air [beat 0x60008000 [] 0xFFFF]).any (fun t => t.port.held == none) = true ∧
    (queued air (slots 64)).PortFree ∧
    (afterWrite (queued air (slots 64)) [closing5 0x41]).any (fun t => t.port.held.isSome) = true ∧
    (afterWrite (queued air (slots 64)) [beat 0x60008000 [] 0xFFFF]).any (fun t =>
      t.port.held == none &&
        (afterWrite t [closing5 0x41]).any fun u => u.port.held.isSome) = true := by
  refine ⟨by decide +kernel, by decide +kernel, by decide +kernel, ?_, by decide +kernel,
    by decide +kernel, by decide +kernel, by decide +kernel, by decide +kernel, by decide +kernel,
    by decide +kernel, by decide +kernel⟩
  exact fun j lo hi =>
    (by decide +kernel : ∀ j, j < 16 → 12 ≤ j →
      (beat (0x60000000 + 32 * 63 + 16) [] 0x0FFF).enables.getLsbD j = false) j hi lo

theorem witness_ClosingWrite :
    (queued air (slots 63)).pins.resetN = true ∧ (queued air (slots 63)).device ≠ .loading ∧
    (queued air (slots 63)).PortFree ∧
    Store.wf CommandSlot.initial (queued air (slots 63)).intake.slots = true ∧
    (beat (0x60000000 + 32 * 63 + 16) [] 0x1000).addr =
      (queued air (slots 63)).conf.anchor.toNat + 32 * 63 + 16 ∧
    (beat (0x60000000 + 32 * 63 + 16) [] 0x1000).enables.getLsbD 12 = true := by
  decide +kernel

/-- The premises of a held write of slot 5, by what it waits for and the intake queue's length. -/
abbrev heldPremises (need : HoldNeed) (n : Nat) (wb : List ResultWord) : Prop :=
  let s : State :=
    { queued air (slots n) with
      own := { air.own with writeBack := wb }
      port := { held := some { size := 4, beats := [closing5 0x41], need := need, priorErr := false
                               replies := [] }
                waiting := [] } }
  s.OnAir ∧ Store.wf CommandSlot.initial s.intake.slots = true ∧
    (closing5 0x41).addr = s.conf.anchor.toNat + 32 * 5 + 16 ∧
    (closing5 0x41).enables.getLsbD 15 = true ∧ s.intake.queue.length = n ∧
    s.writeBackTaken = wb.length ∧ s.conf.flow = .hold

/-- A full write-back queue. -/
abbrev results16 : List ResultWord :=
  List.replicate 16 { slot := 1, code := 0x41, result := .ok, tag := 0 }

/-- A NOT_READY that waits in UNCONFIGURED. -/
def heldNotReady : State :=
  { air with
    device := .unconfigured, own := { air.own with writeBack := results16.tail }
    port := { held := some { size := 4, beats := [closing5 0x41], need := .resultRoom, priorErr := false
                             replies := [] }
              waiting := [] } }

/-- 9.7's held write with one entry of the queue gone, and with a quote beat or another closing beat
behind the held one. -/
def heldPair (b : Beat) : State :=
  { held97 with
    intake := { held97.intake with queue := (slots 64).tail }
    port := { held := some { size := 4, beats := [closing5 0x41, b], need := .intakeRoom
                             priorErr := false, replies := [] }
              waiting := [] } }

theorem witness_HeldWriteEnds :
    heldPremises .intakeRoom 63 [] ∧ heldPremises .intakeRoom 64 [] ∧
    heldPremises .intakeRoom 63 results16 ∧ heldPremises .resultRoom 64 results16.tail ∧
    heldPremises .resultRoom 64 results16 ∧
    (heldNotReady.pins.resetN = true ∧ heldNotReady.device = .unconfigured ∧
      (((heldNotReady.slot 5).merge true (closing5 0x41)).command).code ≠ 0x71 ∧
      heldNotReady.writeBackTaken < 16) ∧
    (∀ b ∈ [beat 0x60008000 [] 0xFFFF, closing5 0x41], (heldPair b).pins.resetN = true ∧
      (heldPair b).port.held.isSome = true) ∧
    answers (exec .heldWriteRelease (heldPair (beat 0x60008000 [] 0xFFFF))) (fun t =>
      t.port.held == none && t.own.writeBack.length == 1) = true ∧
    answers (exec .heldWriteRelease
      { heldPair (closing5 0x41) with own := { air.own with writeBack := results16.tail } }) (fun t =>
        t.port.held.any (fun h => h.beats == [closing5 0x41]) && t.own.writeBack.length == 16) = true ∧
    answers (exec .heldWriteRelease
      { held97 with
        intake := { held97.intake with queue := (slots 64).tail }
        port := { held97.port with waiting :=
          [.read { addr := 0, len := 1, size := 4, data := [1, 2, 3, 4], reply := .okay }] } }) (fun t =>
      t.port.waiting == [] && t.out.length == 4) = true := by
  decide +kernel

/-- The last answer of a RELOAD, and one with another behind it; with nothing held, and with a write held
that waits for the write-back queue, or for the intake queue. -/
theorem witness_AbortAnswers :
    ∀ q ∈ [reloadPair, reloadPair ++ slots 1], ∀ p ∈ [air.port, heldResult, held97.port],
      let s : State :=
        { air with intake := { (queued air q).intake with reload := some .aborting }, port := p }
      s.pins.resetN = true ∧ s.intake.reload = some .aborting ∧
        s.intake.queue = cmd 0x71 0 [] :: { cmd 0x41 1 [] with slot := 4 } :: q.drop 2 ∧
        s.writeBackTaken < 16 := by
  decide +kernel

/-- The byte behind window 0, and the byte before window 1. -/
theorem witness_ReadsPass :
    air.pins.resetN = true ∧ air.PortFree ∧ held97.pins.resetN = true ∧ held97.port.held ≠ none ∧
    ∀ addr ∈ [0x20000000 + 1080 * 7680, 0x21000000 - 1], ∀ d ∈ air.conf.decode,
      (addr < d.base0.toNat ∨ d.base0.toNat + d.lines * d.pitch ≤ addr) ∧
      (addr < d.base1.toNat ∨ d.base1.toNat + d.lines * d.pitch ≤ addr) := by
  decide +kernel

/-- A result in the last slot under the highest anchor; a whole report, and its last beat. -/
theorem witness_OwnWriteCommands :
    (let r : ResultWord := { slot := 63, code := 0x41, result := .ok, tag := 0x140 }
     let s : State :=
       { air with conf := { board with anchor := 0xFFFF0000 }, own := { air.own with writeBack := [r] } }
     s.pins.resetN = true ∧ s.own.writeBack = [r] ∧ s.own.headWritten = false ∧
       (∀ x ∈ s.own.reports.head?, 0 < x.ahead) ∧ s.conf.anchor.toNat + 65536 ≤ 4294967296 ∧
       s.conf.anchor.toNat % 65536 = 0 ∧ r.slot < 64 ∧
       ({ s with own := { s.own with headWritten := true } } : State).own.headWritten = true) ∧
    air.pins.resetN = true ∧ air.reportWords.length = 4 * 32 ∧
      (air.reportWords.drop 124).length = 4 * 1 := by
  decide +kernel

/-- The report line itself, held by the line register, and as a line start; 13.6's line 102 before it;
the last frame line with the report taken; an input that rises, that falls and that does neither, and its actions.
The last byte of window 0, the first of window 1, the byte before it, and a byte that both windows hold. -/
theorem witness_LineStartsAndReports :
    (air.OnAir ∧ air.frameLine (0x20000000 + 1080 * 7680 - 1) = some 1079 ∧
       air.frameLine 0x21000000 = some 0 ∧ air.frameLine (0x21000000 - 1) = none ∧
       (let s : State :=
          { air with conf := { board with decode :=
              (board.decode.map fun d => { d with base1 := 0x20000000 + 7680 }) } }
        s.OnAir ∧ s.frameLine (0x20000000 + 7680) = some 1 ∧
          s.frameLine (0x20000000 + 1080 * 7680) = some 1079)) ∧
    (let s : State := { air with cue := { air.cue with lineReg := some 1000 } }
     s.OnAir ∧ s.frameLine (0x20000000 + 1000 * 7680) = some 1000 ∧ s.cue.lineReg = some 1000 ∧
       board.reportLine = some 1000 ∧ s.rep.taken = false ∧ s.own.reports = []) ∧
    (air.OnAir ∧ air.frameLine (0x20000000 + 1000 * 7680) = some 1000 ∧
       air.cue.lineReg ≠ some 1000 ∧ air.rep.taken = false ∧ air.own.reports = [] ∧
       ∀ n : Fin 4, (air.cue.inputs.get n).action = .none) ∧
    (air.frameLine (0x20000000 + 102 * 7680) = some 102 ∧ ¬ 1000 ≤ 102) ∧
    (let s : State := { air with rep := { air.rep with taken := true } }
     s.OnAir ∧ s.frameLine (0x20000000 + 1079 * 7680) = some 1079 ∧ s.cue.lineReg ≠ some 1079 ∧
       s.rep.taken = true) ∧
    (∀ a ∈ [CueAction.capture, .lane .stopDrain],
     let i : CueInput := { CueInput.initial with action := a, edge := .both, mask := 8 }
     i.action = a ∧ i.mask.getLsbD 3 = true ∧ (∀ k : Fin 4, k < 3 → i.mask.getLsbD k.val = false) ∧
       i.edge ≠ .fall ∧ i.accepted = false ∧ (i.sample true).accepted = true ∧ i.edge ≠ .rise ∧
       ((i.sample true).sample false).accepted = false ∧ (i.sample false).accepted = false) := by
  decide +kernel

theorem witness_ScanBeats :
    air.pins.resetN = true ∧ (loading .waiting []).device ≠ .active ∧
      (loading .waiting []).pins.resetN = true := by
  decide +kernel

theorem witness_BlendArithmetic : ∃ (w : Word) (c : Color) (alpha k g : Nat),
    c.y ≤ 1023 ∧ c.cb ≤ 1023 ∧ c.cr ≤ 1023 ∧ alpha ≤ 256 ∧ k ≤ 256 ∧ g ≤ 256 ∧
      blendWord w c c alpha k g true ≠ w ∧ blendWord w c c alpha k 0 true = w :=
  ⟨0, { y := 1023, cb := 1023, cr := 1023 }, 256, 256, 256, by decide +kernel⟩

/-- 6.7: behind column 0 lies the gap; behind column 400 the entry, and there, on line 1000, a glyph. -/
theorem witness_StripBehindColumn :
    let l := state67.lane 2
    let x : Nat × Placement := (12, place 6600 257)
    let sp : Nat → Int := fun col => ((l.offset / 256 + col : Nat) : Int)
    let font := state67.fontOf (state67.style 0)
    let run := state67.sourceRun (state67.style 0) (.quote 12)
    let r := (sp 400 - 6600).toNat
    let holds := fun g : GlyphPlace => decide (g.pos ≤ r ∧ r < g.pos + (font.glyph g.code).width)
    l.form.left = 0 ∧ l.entries = [] ++ x :: [] ∧ (state67.item 12).source = .quote 12 ∧
    (∀ y ∈ l.entries, ¬ (y.2.start ≤ sp 0 ∧ sp 0 < y.2.start + y.2.width)) ∧
    x.2.start ≤ sp 400 ∧ sp 400 < x.2.start + x.2.width ∧
    l.form.top + (l.form.height - font.height) / 2 ≤ 1000 ∧
    1000 < l.form.top + (l.form.height - font.height) / 2 + font.height ∧
    run = run.takeWhile (fun g => !holds g) ++ run.dropWhile (fun g => !holds g) ∧
    (run.dropWhile fun g => !holds g).head?.any holds = true := by
  decide +kernel

/-- 6.7: the word at column 400 of line 1000 lies under lane 2; column 0 of line 0 under none. -/
theorem witness_WordUnderLane :
    state67.LinesLaw ∧ state67.underLane 0x20753640 = some (2, 1000, 400) ∧
      state67.underLane 0x20000000 = none := by
  decide +kernel

theorem witness_ReportBlock : busy.LaneLaw := by decide +kernel
/-- The most negative price at the most decimals, and a positive previous price. -/
theorem witness_QuoteTextRules :
    (decodeQuote (List.replicate 11 0 ++ [0x80, 0, 0, 0, 7])).decimals ≤ 4 ∧
      (decodeQuote (List.replicate 11 0 ++ [0x80, 0, 0, 0, 7])).price.natAbs = 2147483648 ∧
      0 < value37.price - value37.change := by
  decide +kernel

/-- A valid time; the first font and the last. -/
theorem witness_GlyphRunsAndWidths :
    State.reset.clock.time.valid = true ∧ Style.builtIn.width.font = 0 ∧
      ({ Style.builtIn.width with font := 3 } : WidthFields).font < 4 := by
  decide +kernel

/-- A lane's work before this step. -/
abbrev before (k : Nat) (counted : Bool) : LaneWork :=
  { step := k, begun := false, counted := counted, noted := 0 }

/-- Each step of the work, and what follows the last. -/
theorem witness_LaneStepRules :
    ∀ k ∈ [0, 1, 2, 3, 7, 8, 9, 10, 11], (before k false).step = k := by
  decide +kernel

/-- A lane that does no strip work; a head at the left edge and one left of it; a FLIP page that is not
counted, and one that just reaches its dwell. -/
theorem witness_RetireAndCrossing :
    (before 4 true).step = 4 ∧ (before 5 true).step = 5 ∧ (air.lane 0).state = .off ∧
    (strip.form.kind = .crawl ∧ strip.state = .running ∧ (strip.ring = 1 :: [2, 3]) ∧
      strip.placed = place 640 200 :: [] ∧
      ((256 * 839 / 256 : Nat) : Int) < (place 640 200).start + (place 640 200).width ∧
      (place 640 200).start + (place 640 200).width ≤ ((256 * 840 / 256 : Nat) : Int)) ∧
    ((busy.lane 3).form.kind = .flip ∧ (busy.lane 3).state = .running ∧
      (busy.lane 3).ring = 4 :: [] ∧ (busy.lane 3).placed.length = 1 ∧
      (before 4 false).counted = false ∧ (before 4 true).counted = true ∧
      ({ busy.lane 3 with dwellCount := 299 } : Lane).dwellCount < (busy.lane 3).motion.dwell ∧
      (busy.lane 3).motion.dwell ≤ ({ busy.lane 3 with dwellCount := 300 } : Lane).dwellCount) := by
  decide +kernel

/-- An entry with nothing to show, and the shown quote 37 behind a placed one and on an empty strip; a
full strip and a ring with nothing unplaced; the lanes that place and that do not. -/
theorem witness_PlaceStep :
    ((onStrip.item 1).source = .text 0 ∧ onStrip.chainText 0 = []) ∧
    ((busy.item 2).source = .quote 37 ∧
      ∃ v, (busy.quote 37).shown = some v ∧ v.status ≠ .closed) ∧
    (strip.ring = [1] ++ 2 :: [3] ∧ [1].length = strip.placed.length ∧ strip.placed.length < 48 ∧
      strip.placed.getLast? = some (place 640 200) ∧
      ({ strip with ring := [] ++ 2 :: [3], placed := [] } : Lane).placed = []) ∧
    48 ≤ (List.replicate 48 (place 0 1)).length ∧ [4].length ≤ [place 0 228].length ∧
    (before 6 false).step = 6 ∧ strip.state = .running ∧ strip.form.kind = .crawl ∧
    (lane18 .draining).state = .draining ∧ (busy.lane 3).form.kind = .flip ∧
    (busy.lane 3).placed ≠ [] :=
  ⟨by decide +kernel, ⟨by decide +kernel, value37, by decide +kernel, by decide +kernel⟩,
    by decide +kernel, by decide +kernel, by decide +kernel, rfl, rfl, rfl, rfl, rfl,
    by decide +kernel⟩

/-- The shares of a field start with one slot pending, the clock's first. -/
abbrev sharesOf37 : List FieldTok :=
  .clock :: ([.styles, .slot 37] ++ List.replicate 11 (.lane 0) ++ List.replicate 11 (.lane 1) ++
    List.replicate 11 (.lane 2) ++ List.replicate 11 (.lane 3))

/-- A pending quote, and the whole of the shares in one order; an accumulation below N and one that
reaches it. Nothing pending, a style of its own, and a clock one field before its tick. -/
theorem witness_FieldStartLaneWork :
    (busy.OnAir ∧ Store.wf QuoteSlot.initial busy.quotes = true ∧
      sharesOf37.count .styles = 1 ∧ sharesOf37.count .clock = 1 ∧
      (∀ k, sharesOf37.count (.slot k) = if (busy.quote k).pend = none then 0 else 1) ∧
      (∀ n : Fin 4, sharesOf37.count (.lane n) = 11) ∧
      ∀ (before after : List FieldTok) (n : Fin 4), sharesOf37 = before ++ .clock :: after →
        .lane n ∉ before ∨ .lane n ∉ after) ∧
    (∀ acc ∈ [58998, 58999], ∀ r ∈ board.rate,
      ({ air with clock := { air.clock with acc := acc } } : State).OnAir ∧
        (acc = 58998 → acc + r.d < r.n) ∧ (acc = 58999 → r.n ≤ acc + r.d)) ∧
    let s : State :=
      { onStrip with
        quotes := [(37, { QuoteSlot.initial with shown := some value37 })]
        clock := { onStrip.clock with acc := 58998 } }
    s.OnAir ∧ (∀ e ∈ s.quotes, e.2.pend = none) ∧ Store.wf Style.builtIn s.styles.cur = true ∧
      (∀ k : Fin 32, s.pendingStyle k.val = s.style k.val) ∧
      ∀ r ∈ s.conf.rate, s.clock.acc + r.d < r.n := by
  refine ⟨⟨by decide +kernel, by decide +kernel, by decide +kernel, by decide +kernel, ?_,
    by decide +kernel, ?_⟩, by decide +kernel, by decide +kernel⟩
  · intro k
    by_cases h : k = 37
    · subst h; decide +kernel
    · have hn : busy.quote k = QuoteSlot.initial := by
        simp [State.quote, Store.get, busy, Ne.symm h]
      have hs : FieldTok.slot 37 ≠ FieldTok.slot k := fun e => h (FieldTok.slot.inj e).symm
      simp [hn, QuoteSlot.initial, sharesOf37, hs]
  · intro before after n e
    match before, e with
    | [], _ => exact .inl List.not_mem_nil
    | b :: bs, e =>
      have hm : FieldTok.clock ∈ sharesOf37.tail := by rw [e]; simp
      exact absurd hm (by decide +kernel)

theorem witness_FieldStartOutsideActive :
    (loading .waiting []).pins.resetN = true ∧ (loading .waiting []).device ≠ .active := by
  decide +kernel
theorem witness_FieldStartFrame : busy.OnAir := by decide +kernel

theorem witness_KilledLaneFrozen :
    let s : State := withLane 0 { strip with state := .killed }
    s.OnAir ∧ (s.lane 0).state = .killed ∧
      answers (exec (.fieldStart true []) s) (fun _ => true) = true := by
  decide +kernel

/-- A tick that just reaches N, with entry 15 due and with none. -/
theorem witness_SecondTickAdvances :
    let s : State := { air with clock := { time := TimeOfDay.midnight, acc := 58999 } }
    let due : SchedEntry :=
      { SchedEntry.initial with armed := true, time := { TimeOfDay.midnight with seconds := 1 } }
    ∀ q ∈ [[], [(15, due)]],
      let s' : State := { s with schedule := q }
      s'.OnAir ∧ s'.conf.rate = some { n := 60000, d := 1001 } ∧ 60000 ≤ s'.clock.acc + 1001 ∧
        s'.clock.time.valid = true ∧ Store.wf SchedEntry.initial s'.schedule = true := by
  decide +kernel

/-- A marker exactly left of the left edge; a marker page that reaches the longest dwell, and one that a
held lane does not count. -/
theorem witness_PassLimitReached :
    (let l : Lane :=
       { strip with
         offset := 256 * 840, ring := [2, 3], placed := [place 640 200]
         motion := { strip.motion with passLimit := 255 }, passCount := 254 }
     let s : State := { onStrip with lanes := { onStrip.lanes with e0 := l } }
     s.OnAir ∧ s.lane 0 = l ∧ l.form.kind = .crawl ∧ l.state = .running ∧
       (place 640 200).start + (place 640 200).width ≤ ((l.offset / 256 : Nat) : Int) ∧
       (s.item 2).marker = true ∧ l.motion.passLimit ≠ 0 ∧ l.motion.passLimit ≤ 255 ∧
       l.motion.passLimit ≤ l.passCount + 1) ∧
    ∀ st ∈ [LaneState.running, .held],
      let l : Lane :=
        { lane18 st with
          form := { form27 with kind := .flip }, ring := [2], placed := [place 0 228]
          dwellCount := 65535, motion := { Motion.initial with dwell := 65535, passLimit := 1 } }
      let s : State := { busy with lanes := { busy.lanes with e3 := l } }
      s.OnAir ∧ s.lane 3 = l ∧ l.form.kind = .flip ∧ (s.item 2).marker = true ∧
        l.motion.passLimit ≤ l.passCount + 1 ∧
        (l.state = .running ∧
            l.motion.dwell ≤ (if l.dwellCount < 65535 then l.dwellCount + 1 else 65535) ∨
          l.state = .held) := by
  decide +kernel

theorem witness_PageEnds :
    (busy.OnAir ∧ (busy.lane 3).form.kind = .flip ∧ (busy.lane 3).placed ≠ [] ∧
      (busy.lane 3).state = .running ∧ (busy.lane 3).dwellCount + 1 < (busy.lane 3).motion.dwell ∧
      (busy.lane 3).motion.dwell ≤ ({ busy.lane 3 with dwellCount := 299 } : Lane).dwellCount + 1) ∧
    let l : Lane :=
      { lane18 .running with
        form := { form27 with kind := .flip }, motion := { Motion.initial with dwell := 65535 }
        ring := [4], placed := [place 0 228], dwellCount := 65534 }
    let s : State :=
      { busy with
        lanes := { busy.lanes with e3 := l }
        segments := [(0, { Segment.empty with count := 1 })] }
    s.OnAir ∧ l.form.kind = .flip ∧ (s.item 4).repeats = true ∧ (place 0 228).noRepeat = false ∧
      (s.item 4).marker = false ∧
      l.motion.dwell ≤ (if l.dwellCount < 65535 then l.dwellCount + 1 else 65535) ∧
      l.state = .running ∧ s.skips (s.item 4) = false ∧
      ({ l with state := .draining } : Lane).state = .draining := by
  decide +kernel

theorem witness_HoldAndFadeEnd :
    let p : Placement :=
      { place 640 200 with env := { phase := .attack, level := 0, direction := .down, hold := 1 } }
    let s : State := withLane 0 { strip with placed := [p] }
    let l : Lane := { lane18 .fadingOut with fade := 64 }
    s.OnAir ∧ (s.lane 0).placed[0]? = some p ∧ (s.lane 0).state = .running ∧ p.env.phase = .attack ∧
      p.env.hold ≤ 1 ∧ (withLane 1 l).OnAir ∧ l.state = .fadingOut ∧
      l.fade ≤ (256 + l.motion.fade - 1) / l.motion.fade := by
  decide +kernel

theorem witness_EnvelopeRules :
    let e : Envelope := { phase := .sustain, level := 65280, direction := .up, hold := 1 }
    e.level ≤ 65280 ∧
      ({ Style.builtIn with flash := { Style.builtIn.flash with sustain := 15 } } :
        Style).flash.sustain ≤ 15 := by
  decide +kernel

/-- A value that the placed quote has room for, and one that it has not. -/
theorem witness_TransferCheck :
    Store.wf QuoteSlot.initial busy.quotes = true ∧ (busy.quote 37).pend = some value37 ∧
    (2, place 856 240) ∈ (busy.lane 0).entries ∧ (busy.item 2).source = .quote 37 ∧
    busy.quoteWidth (busy.style 0) value37 ≤ 240 ∧
    ¬ busy.quoteWidth (busy.style 0) value37 ≤ 20 := by
  decide +kernel

theorem witness_KillLatch :
    air.pins.resetN = true ∧ air.pins.killN = true ∧ air.cue.latch = false := by
  decide +kernel
theorem witness_ResetAndBusEvents :
    State.reset.pins.resetN = false ∧ (∀ n, (State.reset.lane n).state = .off) ∧
      (loading .waiting []).loader.bus = .waiting ∧
      (loading .addressing []).loader.bus = .addressing ∧
      (loading .reading image).loader.bus = .reading := by
  decide +kernel
/-- A part whose RELOAD waits at the head of the queue while the loader reads these bytes. -/
def reloading (bytes : List Byte) : State :=
  { loading .reading bytes with
    intake := { (queued air [cmd 0x71 0 []]).intake with reload := some .loading } }

/-- The addressing and the waiting loader; a byte that shows BLANK, IMAGE_OVERRUN and FORMAT; no RELOAD
waiting, and one. -/
theorem witness_LoadFails :
    (loading .addressing []).loader.bus = .addressing ∧ (loading .waiting []).loader.bus ≠ .idle ∧
      scanImage [0xC2] = .fail .blank ∧ scanImage [0xC3, 0x5A, 0xFD, 0xFF] = .fail .imageOverrun ∧
      scanImage [0xC3, 0x5A, 44, 0, 0x03] = .fail .format ∧
      (loading .addressing []).intake.reload = none ∧
      (reloading [0xC3, 0x5A, 44, 0]).loader.bus = .reading ∧
      (reloading [0xC3, 0x5A, 44, 0]).intake.reload ≠ none ∧
      (reloading [0xC3, 0x5A, 44, 0]).intake.queue = cmd 0x71 0 [] :: [] := by
  decide +kernel

/-- The last byte of an image but one, and the last; no RELOAD waiting, and one. -/
theorem witness_ImageBytes :
    scanImage (image.dropLast.dropLast ++ [0]) = .more ∧ image.dropLast ++ [0] = image ∧
    (match scanImage image with
      | .done i => i.config.isSome
      | .more => false
      | .fail _ => false) = true ∧
    (loading .reading image.dropLast).loader.bus = .reading ∧
    (loading .reading image.dropLast).intake.reload = none ∧
    (reloading image.dropLast).loader.bus = .reading ∧
    (reloading image.dropLast).intake.reload ≠ none ∧
    (reloading image.dropLast).intake.queue = cmd 0x71 0 [] :: [] := by
  decide +kernel

/-- The longest image and one byte more; the shortest, and one byte more, which no section fills; the
sections of `image`, each whole within it, the END at its end; a section that ends with the device; lengths
of each type that fit behind a CONFIG, or that the low byte shows do not. -/
theorem witness_ImageSections :
    let none4 : Four (Option Font) := ⟨none, none, none, none⟩
    let i : Image := { config := none, styles := none, fonts := none4 }
    let behind : List Byte → Scan Image := fun bs =>
      match scanImage image with
      | .done x => scanSections 48 9 4 x bs
      | .more => .more
      | .fail r => .fail r
    (0xC2 : Byte) ≠ 0xC3 ∧ (0x5B : Byte) ≠ 0x5A ∧
    4 + (0xFC : Byte).toNat + 256 * (0xFF : Byte).toNat = 65536 ∧
    65536 < 4 + (0xFD : Byte).toNat + 256 * (0xFF : Byte).toNat ∧
    scanImage [0xC3, 0x5A, 44, 0] = .more ∧ scanImage [0xC3, 0x5A, 45, 0] = .fail .format ∧
    ((image.drop 4).getD 0 0).toNat = 0x01 ∧ i.config = none ∧ 4 + 4 + 36 ≤ 48 ∧ 44 + 4 = 48 ∧
    (match scanImage image with
      | .done x => x.config.isSome && x.styles == none && x.fonts == none4
      | .more => false
      | .fail _ => false) = true ∧
    scanSections 65536 65536 65532 i [] = .more ∧
    scanSections 65536 9 65500 i [0x10, 0, 33] = .fail .imageOverrun ∧
    behind [0x02, 0, 0] = .more ∧ behind [0x02, 0, 1] = .fail .format ∧
    behind [0x13, 0, 4] = .more ∧ behind [0x13, 0, 5] = .fail .format := by
  decide +kernel

/-- A whole CONFIG, and one whose pitch of 192 fails at its last byte alone; a font of one glyph, by each
of its header's bytes; a glyph record of 20 bytes in a section that fits it, is one byte short, and is one
byte long, with and without a record to come; one of an advance that is none. -/
theorem witness_ImageBodies :
    ((image.drop 8).take 36).length ≤ 36 ∧
    (match scanConfig ((image.drop 8).take 36) with
      | .done _ => true
      | .more => false
      | .fail _ => false) = true ∧
    scanConfig ((image.drop 8).take 16 ++ [0xC0, 0, 0]) = .more ∧
    scanConfig ((image.drop 8).take 16 ++ [0xC0, 0, 0, 0]) = .fail .format ∧
    (∀ k : Fin 4, scanFont 24 ([8, 4, 1, 0].take (k.val + 1)) = .more) ∧
    scanFont 24 [8, 4, 6] = .fail .format ∧
    (let bs : List Byte := [0x41, 4, 4, 0] ++ List.replicate 16 0x21
     let len := 4 + ((bs.getD 2 0).toNat * 8 + 1) / 2
     len = 20 ∧ len ≤ bs.length ∧ 3 ≤ bs.length ∧ 0x41 ∉ [0x42] ∧
       recordsFit 8 0 (20 - len) = true ∧ 19 < len ∧ recordsFit 8 0 (21 - len) = false ∧
       recordsFit 8 1 (24 - len) = true ∧ recordsFit 8 1 (23 - len) = false ∧
       (bs.take 19).length < len) ∧
    (64 < ([0x41, 65].getD 1 (0 : Byte)).toNat ∧ ([0x41, 65].getD 1 (0 : Byte)).toNat ≠ 255) := by
  decide +kernel

/-- The part on air with a field start waiting: lane 0 crawls, a quote is placed and lane 3 shows a
page. It meets every law, and it steps. -/
def waiting : State :=
  { busy with
    pending := [.fieldStart true [.lane 0, .slot 37, .lane 3, .clock]]
    intake := (queued busy (slots 2)).intake }

theorem witness_LinesLawKept :
    waiting.LinesLaw ∧ answers (step waiting) (fun t => decide t.LinesLaw) = true := by
  decide +kernel
theorem witness_KillAndDeviceLawsKept :
    waiting.KillLaw ∧ waiting.DeviceLaw ∧ answers (step waiting) (fun t => decide t.KillLaw) = true := by
  decide +kernel
theorem witness_LaneLawKept :
    waiting.LaneLaw ∧ answers (step waiting) (fun t => decide t.LaneLaw) = true := by
  decide +kernel
theorem witness_RingLawKept :
    waiting.RingLaw ∧ answers (step waiting) (fun t => decide t.RingLaw) = true := by
  decide +kernel
theorem witness_FitLawKept :
    waiting.FitLaw ∧ waiting.LaneLaw ∧ waiting.DeviceLaw ∧ waiting.StoreLaw ∧
      answers (step waiting) (fun t => decide t.FitLaw) = true :=
  ⟨by decide +kernel, by decide +kernel, by decide +kernel, by decide +kernel, by decide +kernel⟩
theorem witness_IntakeAndStoreLawsKept :
    waiting.IntakeLaw ∧ waiting.StoreLaw ∧
      answers (step waiting) (fun t => decide t.IntakeLaw) = true := by
  decide +kernel
theorem witness_ClockLawKept :
    waiting.ClockLaw ∧ answers (step waiting) (fun t => decide t.ClockLaw) = true := by
  decide +kernel

end Sys2Proof.Tests

end
end

/-! ## Lanes: frame lines, the lane actions and the mask commands -/

namespace Sys2Proof.Machine

/-! ### Frame lines (R6) -/

/-- R6: the model's test of a shared frame line is the failure of `Form.apart`. -/
theorem Form.sharesLine_iff (f g : Form) : f.sharesLine g = true ↔ ¬ f.apart g := by
  simp only [Form.sharesLine, Form.apart, Bool.and_eq_true, decide_eq_true_eq]
  omega

theorem Form.meetsLane_iff (f : Form) (l : Lane) :
    f.meetsLane l = true ↔ ∃ g ∈ l.claims, ¬ f.apart g := by
  unfold Form.meetsLane Lane.claims
  by_cases hl : l.state = .off
  · simp [hl]
  · cases hp : l.pendForm <;> simp [hl, Form.sharesLine_iff]

/-- R6: the overlap check fails a form that is not apart from every claim of the other lanes. -/
theorem State.overlaps_iff (s : State) (n : Fin 4) (f : Form) :
    s.overlaps n f = true ↔ ∃ m : Fin 4, m ≠ n ∧ ∃ g ∈ (s.lane m).claims, ¬ f.apart g := by
  simp only [State.overlaps, List.any_eq_true, Bool.and_eq_true, bne_iff_ne, Form.meetsLane_iff]
  exact ⟨fun ⟨m, _, h⟩ => ⟨m, h⟩, fun ⟨m, h⟩ => ⟨m, mem_fours m, h⟩⟩

/-! ### The lane actions (R6, R7, R10, R11, R12, R17) -/

/-- Settles O6, table by table, by the state of the lane. -/
theorem laneActionTables : Obligations.LaneActionTables := by
  intro s n
  refine ⟨?start, ?drain, ?fade, ?hold, ?resume, ?take⟩
  case start =>
    cases hl : (s.lane n).state <;>
      simp only [State.actOnLane, State.startLane, hl, State.overlaps_iff]
  case drain =>
    cases hl : (s.lane n).state <;> simp only [State.actOnLane, State.stopDrainLane, hl, Lane.enterOff]
  case fade =>
    cases hl : (s.lane n).state <;> simp only [State.actOnLane, State.stopFadeLane, hl, Lane.enterOff]
  case hold =>
    cases hl : (s.lane n).state <;> simp only [State.actOnLane, State.holdLane, hl]
  case resume =>
    cases hl : (s.lane n).state <;> cases hr : (s.lane n).resume <;>
      simp only [State.actOnLane, State.resumeLane, hl, hr, Resume.state]
  case take => rfl

/-! ### The kill latch (R18, R136, R137) -/

/-- Settles O48, by the latch and the state of each lane. -/
theorem killLatch : Obligations.KillLatch := by
  refine ⟨?fall, fun s => rfl⟩
  intro s hr hk cut s1
  have hcut : ∀ l, cut l = l.kill := fun l => by
    simp only [cut, Lane.kill]
    cases l.state <;> rfl
  simp only [exec, execKillLatchSet, hcut]
  rw [if_pos hk, if_pos hr]
  by_cases hl : s.cue.latch = true
  · rw [if_pos hl]
    exact congrArg Host.Outcome.next (if_pos hl)
  · rw [if_neg hl]
    exact congrArg Host.Outcome.next (if_neg hl)

end Sys2Proof.Machine

/-! ## Lanes: the commands of the command window -/

namespace Sys2Proof.Machine

/-! ### Mask commands (R2, R11) -/

/-- R2: acting on the lanes of a mask is acting on every lane in turn and passing over those that the
mask does not name. -/
theorem State.overLanes_filter (act : State → Fin 4 → State × Option ResultCode) (p : Fin 4 → Bool) :
    ∀ (ns : List (Fin 4)) (s : State), State.overLanes act s (ns.filter p) =
      State.overLanes (fun x n => if p n then act x n else (x, none)) s ns
  | [], _ => rfl
  | n :: ns, s => by
    cases hp : p n
    · rw [List.filter_cons_of_neg (by simp [hp]), State.overLanes_filter act p ns s]
      simp [State.overLanes, hp]
    · rw [List.filter_cons_of_pos hp]
      simp only [State.overLanes, hp, if_true, State.overLanes_filter act p ns]

/-- R2: bit `n` of the mask is bit `8 + n` of the close word. -/
theorem Command.getLsbD_laneMask (c : Command) (n : Fin 4) :
    c.laneMask.getLsbD n.val = c.close.getLsbD (8 + n.val) := by
  simp [Command.laneMask]

theorem Command.laneMask_eq_zero_iff (c : Command) : c.laneMask = 0 ↔ bits c.close 8 4 = 0 := by
  rw [Command.laneMask, bits, ← BitVec.toNat_inj]
  rfl

/-- R11: the mode of STOP is a lane action for 0 and 1 alone. -/
theorem Command.stopMode_eq_none {c : Command} (h : 2 ≤ bits c.w0 0 8) : c.stopMode = none := by
  unfold Command.stopMode
  split
  · omega
  · omega
  · rfl

/-- The execution of a lane action on the lanes of a mask, lane by lane. -/
theorem complete_maskEffect (a : LaneAction) (e : IntakeEntry) (s : State) :
    let act := fun (x : State) (n : Fin 4) =>
      if e.command.close.getLsbD (8 + n.val) then x.actOnLane a n else (x, none)
    let r0 := act s 0
    let r1 := act r0.1 1
    let r2 := act r1.1 2
    let r3 := act r2.1 3
    (maskEffect a e.command s).1.complete e (maskEffect a e.command s).2 =
      if bits e.command.close 8 4 = 0 then s.complete e .badArg
      else r3.1.complete e ((r0.2.or (r1.2.or (r2.2.or r3.2))).getD .ok) := by
  intro act r0 r1 r2 r3
  have hover : State.overLanes (fun s n => s.actOnLane a n) s (maskLanes e.command.laneMask) =
      (r3.1, r0.2.or (r1.2.or (r2.2.or r3.2))) := by
    unfold maskLanes
    simp only [State.overLanes_filter, Command.getLsbD_laneMask]
    simp only [State.overLanes, Option.orElse_eq_orElse, Option.orElse_eq_or, Option.or_none]
    rfl
  unfold maskEffect laneResult
  simp only [Command.laneMask_eq_zero_iff, hover]
  by_cases hm : bits e.command.close 8 4 = 0
  · simp only [hm, if_true]
  · simp only [hm, if_false]

/-- Settles O5: each command is its lane action on the lanes of the mask. -/
theorem maskCommands : Obligations.MaskCommands := by
  refine ⟨?named, ?mode⟩
  case named =>
    intro s e i a hcmd
    have hmask := complete_maskEffect a e s.quiet
    rcases hcmd with ⟨rfl, rfl, h⟩ | ⟨rfl, rfl, h⟩ | ⟨rfl, rfl, h, hm⟩ | ⟨rfl, rfl, h, hm⟩ |
      ⟨rfl, rfl, h⟩ | ⟨rfl, rfl, h⟩
    case inr.inr.inl =>
      have hs : stopEffect e.command s.quiet = maskEffect .stopDrain e.command s.quiet := by
        simp only [stopEffect, Command.stopMode, hm, orBadArg]
      exact congrArg Host.Outcome.next ((State.run_of_executes h _).trans (hs ▸ hmask))
    case inr.inr.inr.inl =>
      have hs : stopEffect e.command s.quiet = maskEffect .stopFade e.command s.quiet := by
        simp only [stopEffect, Command.stopMode, hm, orBadArg]
      exact congrArg Host.Outcome.next ((State.run_of_executes h _).trans (hs ▸ hmask))
    all_goals exact congrArg Host.Outcome.next ((State.run_of_executes h _).trans hmask)
  case mode =>
    intro s e h hm
    refine congrArg Host.Outcome.next ((State.run_of_executes h _).trans ?_)
    simp only [stopEffect, Command.stopMode_eq_none hm, orBadArg]

/-! ### LANE_FORM and LANE_MOTION (R3 to R6) -/

theorem Command.lane_eq_some {c : Command} {n : Fin 4} (h : bits c.close 8 8 = n.val) :
    c.lane = some n := four?_eq_some.mpr h

theorem Command.lane_eq_none {c : Command} (h : 4 ≤ bits c.close 8 8) : c.lane = none := by
  unfold Command.lane four?
  exact dif_neg (by unfold Command.short; omega)

/-- A field of `n` bits is below `2 ^ n`. -/
theorem bits_lt (w : Word) (lo n : Nat) : bits w lo n < 2 ^ n := BitVec.isLt _

/-- R3: the clamp of the right column, where the left column leaves room for the least width. -/
theorem clampRight_eq {left right width : Nat} (h : left + 64 ≤ width) :
    clampRight left right width =
      if right < left + 63 then left + 63 else if width - 1 < right then width - 1 else right := by
  unfold clampRight
  split
  · omega
  · split <;> omega

/-- R3: a LANE_FORM carries no form where an argument is out of its range, and else the form of its
fields. -/
theorem Command.formFor_eq (c : Command) (width lines : Nat) :
    c.formFor width lines =
      if 1 < bits c.w0 0 8 ∨ lines ≤ bits c.w1 0 16 ∨ bits c.w1 16 16 < 8 ∨ 96 < bits c.w1 16 16 ∨
          width < bits c.w2 0 16 + 64 ∨ 31 < bits c.w0 8 8 then none
      else some
        { kind := if bits c.w0 0 8 = 0 then .crawl else .flip, top := bits c.w1 0 16
          height := bits c.w1 16 16, left := bits c.w2 0 16
          right := clampRight (bits c.w2 0 16) (bits c.w2 16 16) width, style := bits c.w0 8 8 } := by
  unfold Command.formFor laneKind?
  have hside : (bits c.w1 0 16 < lines ∧ 8 ≤ bits c.w1 16 16 ∧ bits c.w1 16 16 ≤ 96 ∧
      bits c.w2 0 16 + 64 ≤ width ∧ bits c.w0 8 8 < 32) ↔
      ¬ (lines ≤ bits c.w1 0 16 ∨ bits c.w1 16 16 < 8 ∨ 96 < bits c.w1 16 16 ∨
        width < bits c.w2 0 16 + 64 ∨ 31 < bits c.w0 8 8) := by omega
  simp only [hside]
  split
  · rename_i hk
    simp only [hk, Option.bind_some, ite_not, if_true]
    simp
  · rename_i hk
    simp only [hk, Option.bind_some, ite_not]
    simp
  · rename_i h0 h1
    rw [Option.bind_none, if_pos (.inl (Nat.one_lt_iff_ne_zero_and_ne_one.mpr ⟨h0, h1⟩))]

/-- R4: the motion a LANE_MOTION carries, each value clamped to its range. -/
theorem Command.motion_eq (c : Command) :
    c.motion =
      { speed := if 8191 < bits c.w0 0 16 then 8191 else bits c.w0 0 16
        gap := if 1023 < bits c.w0 16 16 then 1023 else bits c.w0 16 16
        dwell := if bits c.w1 0 16 = 0 then 1 else bits c.w1 0 16
        fade := bits c.w1 16 8, passLimit := bits c.w1 24 8, cueColumn := bits c.w2 0 16 } := by
  have hf := bits_lt c.w1 16 8
  have hp := bits_lt c.w1 24 8
  simp only [Command.motion, Motion.mk.injEq, and_true]
  refine ⟨?_, ?_, ?_, ?_, ?_⟩
  · split <;> omega
  · split <;> omega
  · split <;> omega
  · omega
  · omega

/-- R3, R5, R6: LANE_FORM for one of the four lanes, by the form it carries. -/
theorem laneFormEffect_eq {c : Command} {n : Fin 4} (hn : c.lane = some n) (s : State) :
    laneFormEffect c s =
      match c.formFor s.activeWidth s.activeLines with
      | none => (s, .badArg)
      | some f =>
        if (s.lane n).state ≠ .off ∧ f.kind ≠ (s.lane n).form.kind then (s, .badState)
        else if s.overlaps n f then (s, .overlap)
        else (s.setLane n ((s.lane n).offerForm f), .ok) := by
  simp only [laneFormEffect, hn, orBadArg]
  cases c.formFor s.activeWidth s.activeLines <;> rfl

/-- R4, R5: LANE_MOTION for one of the four lanes. -/
theorem laneMotionEffect_eq {c : Command} {n : Fin 4} (hn : c.lane = some n) (s : State) :
    laneMotionEffect c s = (s.setLane n ((s.lane n).offerMotion c.motion), .ok) := by
  simp only [laneMotionEffect, hn, orBadArg]

/-- R5, R6: LANE_FORM, with its completion, for a form that passes the argument checks. -/
theorem complete_laneForm {e : IntakeEntry} {n : Fin 4} {s : State} {f : Form}
    (hn : e.command.lane = some n)
    (hf : e.command.formFor s.activeWidth s.activeLines = some f) :
    (laneFormEffect e.command s).1.complete e (laneFormEffect e.command s).2 =
      if (s.lane n).state ≠ .off ∧ f.kind ≠ (s.lane n).form.kind then s.complete e .badState
      else if ∃ m : Fin 4, m ≠ n ∧ ∃ g ∈ (s.lane m).claims, ¬ f.apart g then s.complete e .overlap
      else if (s.lane n).state = .off then
        (s.setLane n
          { s.lane n with
            form := f
            motion := { (s.lane n).motion with
              cueColumn := min (s.lane n).motion.cueColumn (f.right - f.left) }
            pendForm := none }).complete e .ok
      else (s.setLane n { s.lane n with pendForm := some f }).complete e .ok := by
  simp only [laneFormEffect_eq hn, hf, State.overlaps_iff]
  split
  · rfl
  · split
    · rfl
    · unfold Lane.offerForm
      split
      · rfl
      · rfl

/-- Settles O7: the checks of LANE_FORM in their order, and where each command's parameters go. -/
theorem laneParameterCommands : Obligations.LaneParameterCommands := by
  refine ⟨⟨?form, ?formLane⟩, ?motion, ?motionLane⟩
  case form =>
    intro s e n d h hn hd c l kind style top height left right f
    refine congrArg Host.Outcome.next ((State.run_of_executes h _).trans ?_)
    have hform : e.command.formFor s.quiet.activeWidth s.quiet.activeLines =
        if 1 < kind ∨ d.lines ≤ top ∨ height < 8 ∨ 96 < height ∨ d.width < left + 64 ∨ 31 < style
          then none else some f := by
      have hw : s.quiet.activeWidth = d.width := by simp [State.activeWidth, hd]
      have hl : s.quiet.activeLines = d.lines := by simp [State.activeLines, hd]
      rw [hw, hl, Command.formFor_eq]
      split
      · rfl
      · rename_i hgood
        rw [clampRight_eq (by omega)]
    split
    · rename_i hbad
      rw [if_pos hbad] at hform
      rw [laneFormEffect_eq (Command.lane_eq_some hn), hform]
    · rename_i hgood
      rw [if_neg hgood] at hform
      exact complete_laneForm (Command.lane_eq_some hn) hform
  case formLane =>
    intro s e h hn
    refine congrArg Host.Outcome.next ((State.run_of_executes h _).trans ?_)
    simp only [laneFormEffect, Command.lane_eq_none hn, orBadArg]
  case motion =>
    intro s e n h hn c l cap m
    refine congrArg Host.Outcome.next ((State.run_of_executes h _).trans ?_)
    have hm : e.command.motion = m := Command.motion_eq _
    have hcap : ∀ v hi, cap v hi = min v hi := fun v hi => by
      simp only [cap]
      split <;> omega
    rw [laneMotionEffect_eq (Command.lane_eq_some hn), hm, hcap]
    unfold Lane.offerMotion
    rfl
  case motionLane =>
    intro s e h hn
    refine congrArg Host.Outcome.next ((State.run_of_executes h _).trans ?_)
    simp only [laneMotionEffect, Command.lane_eq_none hn, orBadArg]

end Sys2Proof.Machine

/-! ## The word under a lane, and the steps of a lane's field start work -/

namespace Sys2Proof.Machine

/-! ### Which words are composited (R94, R95, R97) -/

/-- R94: an offset lies in the window that decodes the address, window 0 deciding. -/
theorem DecodeConfig.offset?_eq_some (d : DecodeConfig) (addr o : Nat) :
    d.offset? addr = some o ↔
      (d.base0.toNat ≤ addr ∧ addr < d.base0.toNat + d.lines * d.pitch ∧ addr = d.base0.toNat + o) ∨
      (¬ (d.base0.toNat ≤ addr ∧ addr < d.base0.toNat + d.lines * d.pitch) ∧
        d.base1.toNat ≤ addr ∧ addr < d.base1.toNat + d.lines * d.pitch ∧
        addr = d.base1.toNat + o) := by
  unfold DecodeConfig.offset? DecodeConfig.size
  split
  · rw [Option.some.injEq]; omega
  · split
    · rw [Option.some.injEq]; omega
    · simp only [reduceCtorEq, false_iff]; omega

theorem DecodeConfig.pixel?_eq_some (d : DecodeConfig) (addr line col : Nat) :
    d.pixel? addr = some (line, col) ↔
      ∃ o, d.offset? addr = some o ∧ o % d.pitch < 4 * d.width ∧ line = o / d.pitch ∧
        col = o % d.pitch / 4 := by
  unfold DecodeConfig.pixel?
  cases d.offset? addr with
  | none => simp
  | some o =>
    simp only [Option.ite_none_right_eq_some, Option.some.injEq, Prod.mk.injEq, exists_eq_left']
    exact and_congr_right fun _ => and_congr eq_comm eq_comm

theorem DecodeConfig.inField_iff (d : DecodeConfig) (parity : Bool) (line : Nat) :
    d.inField parity line = true ↔ (d.interlaced = true → line % 2 = if parity then 1 else 0) := by
  unfold DecodeConfig.inField
  cases d.interlaced <;> simp

theorem LaneState.composited_iff (x : LaneState) : x.composited = true ↔ x ≠ .off ∧ x ≠ .killed := by
  cases x <;> simp [LaneState.composited]

/-- R97, conditions 5 to 7. -/
theorem Lane.covers_iff (l : Lane) (line col : Nat) :
    l.covers line col = true ↔
      l.form.top ≤ line ∧ line < l.form.top + l.form.height ∧ l.form.left ≤ col ∧ col ≤ l.form.right ∧
        l.state ≠ .off ∧ l.state ≠ .killed := by
  simp only [Lane.covers, Form.hasLine, Bool.and_eq_true, decide_eq_true_eq,
    LaneState.composited_iff]
  tauto

/-- R6: no two lanes cover the same frame line. -/
theorem State.covers_unique {s : State} (h : s.LinesLaw) {m n : Fin 4} {line col col' : Nat}
    (hm : (s.lane m).covers line col = true) (hn : (s.lane n).covers line col' = true) : m = n := by
  rw [Lane.covers_iff] at hm hn
  obtain ⟨hm1, hm2, _, _, hmo, _⟩ := hm
  obtain ⟨hn1, hn2, _, _, hno, _⟩ := hn
  by_contra hne
  have hclaim : ∀ k : Fin 4, (s.lane k).state ≠ .off → (s.lane k).form ∈ (s.lane k).claims :=
    fun k hk => by simp [Lane.claims, hk]
  have hapart := h.2 m n hne _ (hclaim m hmo) _ (hclaim n hno)
  unfold Form.apart at hapart
  omega

/-- R97: the lane under which a word is found meets the seven conditions. -/
theorem State.underLane_eq_some (s : State) (addr line col : Nat) (n : Fin 4) :
    s.underLane addr = some (n, line, col) ↔
      s.device = .active ∧ s.cue.latch = false ∧
      (∃ d, s.conf.decode = some d ∧ d.pixel? addr = some (line, col) ∧
        d.inField s.parity line = true) ∧
      fours.find? (fun m => (s.lane m).covers line col) = some n := by
  unfold State.underLane
  cases hd : s.conf.decode with
  | none => simp
  | some d =>
    dsimp only
    cases hp : d.pixel? addr with
    | none => simp [hp]
    | some x =>
      obtain ⟨line', col'⟩ := x
      simp only [hp, Option.some.injEq, exists_eq_left', Prod.mk.injEq, Option.ite_none_right_eq_some,
        Option.map_eq_some_iff]
      constructor
      · rintro ⟨⟨ha, hl, hf⟩, k, hk, rfl, rfl, rfl⟩
        exact ⟨ha, hl, ⟨⟨rfl, rfl⟩, hf⟩, hk⟩
      · rintro ⟨ha, hl, ⟨⟨rfl, rfl⟩, hf⟩, hk⟩
        exact ⟨⟨ha, hl, hf⟩, n, hk, rfl, rfl, rfl⟩

/-- R97, R6: of the lanes that share no frame line, the one found is any that covers. -/
theorem State.find?_covers_iff {s : State} (h : s.LinesLaw) (line col : Nat) (n : Fin 4) :
    fours.find? (fun m => (s.lane m).covers line col) = some n ↔ (s.lane n).covers line col = true := by
  constructor
  · exact fun hf => List.find?_some (p := fun m => (s.lane m).covers line col) hf
  · intro hn
    cases hf : fours.find? (fun m => (s.lane m).covers line col) with
    | none => exact absurd hn (List.find?_eq_none.mp hf n (mem_fours n))
    | some m =>
      have hm := List.find?_some (p := fun m => (s.lane m).covers line col) hf
      rw [State.covers_unique h hm hn]

/-- Settles O32: the lane under which a word is found is the one that meets the seven conditions. -/
theorem wordUnderLane : Obligations.WordUnderLane := by
  intro s addr w hlines offset under
  have hunder : ∀ n line col, s.underLane addr = some (n, line, col) ↔ under n line col := by
    intro n line col
    rw [State.underLane_eq_some, State.find?_covers_iff hlines, Lane.covers_iff]
    simp only [under, offset, DecodeConfig.pixel?_eq_some, DecodeConfig.offset?_eq_some,
      DecodeConfig.inField_iff]
    refine and_congr_right fun _ => and_congr_right fun _ => and_congr_left fun _ => ?_
    constructor
    · rintro ⟨d, hd, ⟨o, ho, hw, hl, hc⟩, hf⟩
      exact ⟨d, o, hd, ho, hw, hl, hc, hf⟩
    · rintro ⟨d, o, hd, ho, hw, hl, hc, hf⟩
      exact ⟨d, hd, ⟨o, ho, hw, hl, hc⟩, hf⟩
  constructor
  · intro n line col h
    simp only [State.composeWord, (hunder n line col).mpr h]
  · intro h
    cases hu : s.underLane addr with
    | none => simp only [State.composeWord, hu]
    | some x => exact absurd ((hunder x.1 x.2.1 x.2.2).mp hu) (h _ _ _)

/-! ### The states of the strip work (R28, R29) -/

theorem LaneState.works_iff (x : LaneState) :
    x.works = true ↔ x = .running ∨ x = .held ∨ x = .draining ∨ x = .fadingOut := by
  cases x <;> simp [LaneState.works]

theorem Lane.moves_iff (l : Lane) :
    l.moves = true ↔
      l.state = .running ∨ l.state = .draining ∨ (l.state = .fadingOut ∧ l.motionOn = true) := by
  unfold Lane.moves
  cases l.state <;> simp

theorem Lane.works_of_moves {l : Lane} (h : l.moves = true) : l.state.works = true := by
  rw [LaneState.works_iff]
  rw [Lane.moves_iff] at h
  tauto

theorem Lane.fadeEnds_iff (l : Lane) : l.fadeEnds = true ↔ l.state = .fadingOut ∧ l.fade = 0 := by
  simp [Lane.fadeEnds]

/-! ### The eleven steps (R8, R28, R41) -/

/-- R4, R5, R9: the take gives the pending parameters, the cue column clamped to the new width where
either was pending. -/
theorem Lane.takeApply_eq {l : Lane} (h : l.takeMark = true) :
    l.takeApply =
      { l with
        form := l.pendForm.getD l.form
        motion := { l.pendMotion.getD l.motion with
          cueColumn :=
            if (l.pendForm ≠ none ∨ l.pendMotion ≠ none) ∧
                (l.pendForm.getD l.form).right - (l.pendForm.getD l.form).left <
                  (l.pendMotion.getD l.motion).cueColumn then
              (l.pendForm.getD l.form).right - (l.pendForm.getD l.form).left
            else (l.pendMotion.getD l.motion).cueColumn }
        pendForm := none, pendMotion := none, takeMark := false } := by
  have hmin : ∀ a b : Nat, min a b = if b < a then b else a := fun a b => by split <;> omega
  unfold Lane.takeApply
  rw [if_pos h]
  cases hf : l.pendForm <;> cases hm : l.pendMotion <;>
    simp [Lane.setForm, Lane.setMotion, Motion.clampCue, Form.laneWidth, hf, hm, hmin]

theorem Lane.takeApply_of_not {l : Lane} (h : l.takeMark = false) : l.takeApply = l := by
  simp [Lane.takeApply, h]

/-- R9, R5: the take as a case of whether the lane is marked. -/
theorem State.setLane_takeApply (s : State) (n : Fin 4) :
    s.setLane n (s.lane n).takeApply =
      if (s.lane n).takeMark = true then s.setLane n (s.lane n).takeApply else s := by
  split
  · rfl
  · rename_i h
    rw [Lane.takeApply_of_not (Bool.eq_false_iff.mpr h), State.setLane_lane]

/-- R29: the advance of a CRAWL lane that takes strip work. -/
theorem Lane.advance_crawl {l : Lane} (w : LaneWork) (hw : l.state.works = true)
    (hk : l.form.kind = .crawl) :
    l.advance w =
      ({ l with offset := if l.moves = true ∧ w.begun = false then l.offset + l.motion.speed
                          else l.offset },
       { w with noted := (l.offsetPx : Int) }) := by
  simp [Lane.advance, hw, hk]

/-- R42: the dwell count of a FLIP lane. -/
theorem Lane.advance_flip {l : Lane} (w : LaneWork) (hk : l.form.kind = .flip) :
    l.advance w =
      if l.moves = true ∧ w.begun = false ∧ l.placed ≠ [] then
        ({ l with dwellCount := min 65535 (l.dwellCount + 1) }, { w with counted := true })
      else (l, w) := by
  have hmw := @Lane.works_of_moves l
  unfold Lane.advance
  cases hw : l.state.works
  · have hm : ¬ l.moves = true := fun hm => by simp [hmw hm] at hw
    simp [hm]
  · simp [hk, and_assoc]

theorem Lane.advance_of_not_works {l : Lane} (w : LaneWork) (hw : l.state.works = false) :
    l.advance w = (l, w) := by
  simp [Lane.advance, hw]

/-- R30: the rebase step. -/
theorem Lane.rebaseStep_eq (l : Lane) (w : LaneWork) :
    l.rebaseStep w =
      if l.state.works = true ∧ l.form.kind = .crawl ∧ 268435456 ≤ l.offset then
        (l.rebase, { w with noted := w.noted - 1048576 })
      else (l, w) := by
  have hpx : Config.rebasePixels ≤ l.offsetPx ↔ 268435456 ≤ l.offset := by
    unfold Config.rebasePixels Lane.offsetPx
    omega
  simp [Lane.rebaseStep, hpx, and_assoc]

/-- R16: the fade step up, by cases. -/
theorem fadeUp_eq (f g : Nat) :
    fadeUp f g = if f = 0 ∨ 256 < g + (256 + f - 1) / f then 256 else g + (256 + f - 1) / f := by
  unfold fadeUp fadeIncrement
  split
  · rename_i h; rw [if_pos (.inl h)]
  · split <;> omega

/-- R16: the fade step down, by cases. -/
theorem fadeDown_eq (f g : Nat) :
    fadeDown f g = if f = 0 ∨ g < (256 + f - 1) / f then 0 else g - (256 + f - 1) / f := by
  unfold fadeDown fadeIncrement
  split
  · rename_i h; rw [if_pos (.inl h)]
  · split <;> omega

/-! Each step by its number; what the lane carries on has the next number. -/

/-- What a lane carries on from a step that leaves its work as it is. -/
abbrev LaneWork.next (w : LaneWork) : LaneWork := { w with step := w.step + 1 }

section
variable (s : State) (n : Fin 4) {w : LaneWork}

theorem State.laneStep_take (h : w.step = 0) :
    s.laneStep n w = (s.setLane n (s.lane n).takeApply, w.next) := by
  obtain ⟨k, b, c, x⟩ := w; obtain rfl : k = 0 := h; rfl

theorem State.laneStep_begin (h : w.step = 1) :
    s.laneStep n w =
      (s.setLane n (s.lane n).begin, { w.next with begun := (s.lane n).state == .armed }) := by
  obtain ⟨k, b, c, x⟩ := w; obtain rfl : k = 1 := h; rfl

theorem State.laneStep_advance (h : w.step = 2) :
    s.laneStep n w =
      (s.setLane n ((s.lane n).advance w.next).1, ((s.lane n).advance w.next).2) := by
  obtain ⟨k, b, c, x⟩ := w; obtain rfl : k = 2 := h; rfl

theorem State.laneStep_rebase (h : w.step = 3) :
    s.laneStep n w =
      (s.setLane n ((s.lane n).rebaseStep w.next).1, ((s.lane n).rebaseStep w.next).2) := by
  obtain ⟨k, b, c, x⟩ := w; obtain rfl : k = 3 := h; rfl

theorem State.laneStep_retire (h : w.step = 4) :
    s.laneStep n w =
      ((s.setLane n ((s.lane n).retireStep s.items w.next).1).raiseIf
        ((s.lane n).retireStep s.items w.next).2 (.laneEmpty n), w.next) := by
  obtain ⟨k, b, c, x⟩ := w; obtain rfl : k = 4 := h; rfl

theorem State.laneStep_cross (h : w.step = 5) : s.laneStep n w = (s.crossStep n, w.next) := by
  obtain ⟨k, b, c, x⟩ := w; obtain rfl : k = 5 := h; rfl

theorem State.laneStep_place (h : w.step = 6) :
    s.laneStep n w = (s.placeStep n w.next, w.next) := by
  obtain ⟨k, b, c, x⟩ := w; obtain rfl : k = 6 := h; rfl

theorem State.laneStep_envelope (h : w.step = 7) :
    s.laneStep n w = (s.envelopeStep n, w.next) := by
  obtain ⟨k, b, c, x⟩ := w; obtain rfl : k = 7 := h; rfl

theorem State.laneStep_drain (h : w.step = 8) :
    s.laneStep n w = (s.setLane n (s.lane n).drainCheck, w.next) := by
  obtain ⟨k, b, c, x⟩ := w; obtain rfl : k = 8 := h; rfl

theorem State.laneStep_fade (h : w.step = 9) :
    s.laneStep n w = (s.setLane n (s.lane n).fadeStep, w.next) := by
  obtain ⟨k, b, c, x⟩ := w; obtain rfl : k = 9 := h; rfl

theorem State.laneStep_off (h : w.step = 10) : s.laneStep n w = (s.offStep n, w.next) := by
  obtain ⟨k, b, c, x⟩ := w; obtain rfl : k = 10 := h; rfl

theorem State.laneStep_past (h : 11 ≤ w.step) : s.laneStep n w = (s, w) := by
  unfold State.laneStep
  dsimp only
  split <;> first | omega | rfl

end

/-- Settles O35, step by step. -/
theorem laneStepRules : Obligations.LaneStepRules := by
  intro s n w l w' works moves
  have hworks : l.state.works = true ↔ works := LaneState.works_iff _
  have hmoves : l.moves = true ↔ moves := Lane.moves_iff _
  have keep : s.setLane n l = s := s.setLane_lane n
  refine ⟨?take, ?begin, ?advance, ?rebase, ?envelope, ?drain, ?fade, ?off,
    fun h => s.laneStep_past n h⟩
  case take =>
    intro h
    rw [State.laneStep_take s n h, State.setLane_takeApply]
    split
    · rename_i hm
      rw [Lane.takeApply_eq hm]
    · rfl
  case begin =>
    intro h
    rw [State.laneStep_begin s n h]
    by_cases ha : l.state = .armed
    · simp only [Lane.begin, ha, if_true, l, w', beq_self_eq_true]
    · simp only [Lane.begin, ha, if_false, keep, w', l, beq_eq_false_iff_ne.mpr ha]
  case advance =>
    intro h
    rw [State.laneStep_advance s n h]
    cases hk : l.form.kind with
    | crawl =>
      cases hw : l.state.works with
      | true =>
        rw [Lane.advance_crawl w.next hw hk]
        refine Eq.trans ?_ (if_pos ⟨hworks.mp hw, rfl⟩).symm
        simp only [← hmoves]
        split
        · rfl
        · exact congrArg (·, _) keep
      | false =>
        have hnw : ¬ works := fun h => by simp [hworks.mpr h] at hw
        rw [Lane.advance_of_not_works w.next hw, if_neg (fun h => hnw h.1),
          if_neg (fun h => nomatch h.2.1)]
        exact congrArg (·, w') keep
    | flip =>
      rw [Lane.advance_flip w.next hk]
      refine Eq.trans ?_ (if_neg fun h => LaneKind.noConfusion h.2).symm
      simp only [← hmoves, true_and]
      have hmin : min 65535 (l.dwellCount + 1) =
          if l.dwellCount < 65535 then l.dwellCount + 1 else 65535 := by split <;> omega
      split
      · rw [← hmin]
      · exact congrArg (·, w') keep
  case rebase =>
    intro h
    rw [State.laneStep_rebase s n h, Lane.rebaseStep_eq]
    simp only [← hworks]
    split
    · rfl
    · exact congrArg (·, w') keep
  case envelope =>
    intro h
    rw [State.laneStep_envelope s n h]
    simp only [← hworks]
    rfl
  case drain =>
    intro h
    rw [State.laneStep_drain s n h]
    unfold Lane.drainCheck
    split
    · rfl
    · exact congrArg (·, w') keep
  case fade =>
    intro h
    rw [State.laneStep_fade s n h]
    simp only [Lane.fadeStep, fadeUp_eq, fadeDown_eq]
    cases hl : l.state with
    | running | held | draining | fadingOut => rfl
    | off | armed | killed => exact congrArg (·, w') keep
  case off =>
    intro h
    rw [State.laneStep_off s n h]
    refine congrArg (·, w') ?_
    unfold State.offStep
    simp only [Lane.fadeEnds_iff]
    split
    · rename_i hf
      simp only [Lane.enterOff, l, hf.2]
    · rfl

end Sys2Proof.Machine

/-! ## The ends of a hold and of a fade-out -/

namespace Sys2Proof.Machine

theorem Phase.gated_iff (x : Phase) : x.gated = true ↔ x = .attack ∨ x = .decay ∨ x = .sustain := by
  cases x <;> simp [Phase.gated]

theorem Envelope.holdDue_iff (e : Envelope) :
    e.holdDue = true ↔ (e.phase = .attack ∨ e.phase = .decay ∨ e.phase = .sustain) ∧ e.hold ≤ 1 := by
  simp [Envelope.holdDue, Phase.gated_iff]

/-- R87: a hold that runs out ends in RELEASE at the level standing. -/
theorem Envelope.holdStep_of_due {e : Envelope} (h : e.holdDue = true) :
    e.holdStep = { e with phase := .release, hold := 0 } := by
  simp only [Envelope.holdDue, Bool.and_eq_true, decide_eq_true_eq] at h
  simp only [Envelope.holdStep, h.1, h.2, if_true]

/-- R16: the step down reaches 0. -/
theorem fadeDown_eq_zero_iff (f g : Nat) :
    fadeDown f g = 0 ↔ f = 0 ∨ g ≤ (256 + f - 1) / f := by
  rw [fadeDown_eq]
  split <;> omega

/-- R16, R17: the fade-out of a FADING_OUT lane ends with the step that reaches 0. -/
theorem State.fadeDue_iff (s : State) (n : Fin 4) :
    s.fadeDue n = true ↔ s.device = .active ∧ (s.lane n).state = .fadingOut ∧
      fadeDown (s.lane n).motion.fade (s.lane n).fade = 0 := by
  simp only [State.fadeDue, Bool.and_eq_true, beq_iff_eq, Lane.fadeEnds_iff, Lane.fadeStep]
  cases h : (s.lane n).state <;> simp [h]

/-- Settles O45: the entry whose hold is due, and the lane whose fade is due. -/
theorem holdAndFadeEnd : Obligations.HoldAndFadeEnd := by
  refine ⟨?hold, ?fade⟩
  case hold =>
    intro s n k p hair hp hworks hgated hhold
    have hdue : p.env.holdDue = true := (Envelope.holdDue_iff _).mpr ⟨hgated, hhold⟩
    have hplaced : ((s.lane n).placed.modify k fun p =>
        if p.env.holdDue then { p with env := p.env.holdStep } else p) =
          (s.lane n).placed.set k { p with env := { p.env with phase := .release, hold := 0 } } := by
      refine List.ext_getElem? fun i => ?_
      rw [List.getElem?_modify, List.getElem?_set]
      by_cases hi : k = i
      · subst hi
        obtain ⟨hlt, hget⟩ := List.getElem?_eq_some_iff.mp hp
        simp [hlt, hget, hdue, Envelope.holdStep_of_due]
      · simp [hi]
    simp only [exec, execHoldExpiry, hplaced]
    rw [if_pos ⟨hair.2, (LaneState.works_iff _).mpr hworks⟩]
  case fade =>
    intro s n hair l hstate hfade
    have hdue : s.fadeDue n = true :=
      (State.fadeDue_iff s n).mpr ⟨hair.2, hstate, (fadeDown_eq_zero_iff _ _).mpr hfade⟩
    exact congrArg Host.Outcome.next (if_pos hdue)

end Sys2Proof.Machine

/-! ## A field start is its shares, one after another (R8, R54, R122, R124, R130) -/

namespace Sys2Proof

@[simp] theorem Four.set_set {α : Type} (f : Four α) (n : Fin 4) (a b : α) :
    (f.set n a).set n b = f.set n b := by
  match n with
  | 0 => rfl
  | 1 => rfl
  | 2 => rfl
  | 3 => rfl

end Sys2Proof

namespace Sys2Proof.Machine

/-! ### Single shares -/

/-- A share that is still to come; the clock's comes only where no lane is amid its work (R130). -/
def FieldWork.Due (w : FieldWork) : FieldTok → Prop
  | .styles => w.stylesDone = false
  | .slot k => k ∈ w.slotsLeft
  | .lane n => (w.lanes.get n).step < 11
  | .clock => w.clockDone = false ∧ ∀ n, (w.lanes.get n).step = 0 ∨ 11 ≤ (w.lanes.get n).step

/-- One share, taken. -/
def State.takeShare (r : State × FieldWork) : FieldTok → State × FieldWork
  | .styles => (r.1.transferStyles, { r.2 with stylesDone := true })
  | .slot k => (r.1.checkSlot k, { r.2 with slotsLeft := r.2.slotsLeft.erase k })
  | .lane n => r.1.laneShare r.2 n
  | .clock => (r.1.accumulate, { r.2 with clockDone := true })

/-- `Shares r ts r'`: from `r`, the shares `ts`, each due at its turn, lead to `r'`. -/
inductive Shares : State × FieldWork → List FieldTok → State × FieldWork → Prop
  | nil (r : State × FieldWork) : Shares r [] r
  | cons {r r' : State × FieldWork} {t : FieldTok} {ts : List FieldTok} :
      r.2.Due t → Shares (State.takeShare r t) ts r' → Shares r (t :: ts) r'

theorem Shares.single {r : State × FieldWork} {t : FieldTok} (h : r.2.Due t) :
    Shares r [t] (State.takeShare r t) := .cons h (.nil _)

theorem Shares.append {r r' r'' : State × FieldWork} {ts us : List FieldTok} (h : Shares r ts r')
    (k : Shares r' us r'') : Shares r (ts ++ us) r'' := by
  induction h with
  | nil => exact k
  | cons hd _ ih => exact .cons hd (ih k)

/-- What every share that is due keeps, a sequence of shares keeps. -/
theorem Shares.induct {P : State × FieldWork → Prop}
    (hstep : ∀ r t, r.2.Due t → P r → P (State.takeShare r t)) {r r' : State × FieldWork}
    {ts : List FieldTok} (h : Shares r ts r') (h0 : P r) : P r' := by
  induction h with
  | nil => exact h0
  | cons hd _ ih => exact ih (hstep _ _ hd h0)

/-- `r'` is reached from `r` by shares that were due. -/
abbrev SharesTo (r r' : State × FieldWork) : Prop := ∃ ts, Shares r ts r'

theorem SharesTo.refl (r : State × FieldWork) : SharesTo r r := ⟨[], .nil r⟩

theorem SharesTo.trans {r r' r'' : State × FieldWork} : SharesTo r r' → SharesTo r' r'' →
    SharesTo r r''
  | ⟨_, h⟩, ⟨_, k⟩ => ⟨_, h.append k⟩

theorem SharesTo.foldl {α : Type} {f : State × FieldWork → α → State × FieldWork}
    (hf : ∀ r a, SharesTo r (f r a)) : ∀ (l : List α) (r : State × FieldWork), SharesTo r (l.foldl f r)
  | [], r => .refl r
  | a :: l, r => (hf r a).trans (SharesTo.foldl hf l (f r a))

/-! ### A lane's steps are numbered -/

theorem Lane.advance_step (l : Lane) (w : LaneWork) : (l.advance w).2.step = w.step := by
  unfold Lane.advance
  split
  · rfl
  · split
    · rfl
    · split <;> rfl

theorem Lane.rebaseStep_step (l : Lane) (w : LaneWork) : (l.rebaseStep w).2.step = w.step := by
  unfold Lane.rebaseStep
  split <;> rfl

theorem State.laneStep_step (s : State) (n : Fin 4) {w : LaneWork} (h : w.step < 11) :
    (s.laneStep n w).2.step = w.step + 1 := by
  unfold State.laneStep
  dsimp only
  split
  case h_3 => exact Lane.advance_step _ _
  case h_4 => exact Lane.rebaseStep_step _ _
  case h_12 => grind
  all_goals rfl

/-- R8: after as many steps as are left, a lane's work is done. -/
theorem State.laneRest_step : ∀ (fuel : Nat) (s : State) (n : Fin 4) (w : LaneWork),
    11 ≤ w.step + fuel → 11 ≤ (State.laneRest fuel s n w).2.step
  | 0, _, _, _, h => h
  | fuel + 1, s, n, w, h => by
    rw [State.laneRest]
    apply State.laneRest_step
    by_cases hw : w.step < 11
    · rw [State.laneStep_step s n hw]; omega
    · rw [State.laneStep_past s n (by omega)]; exact Nat.le_add_right_of_le (Nat.not_lt.mp hw)

/-! ### The model's operations are shares in sequence -/

theorem State.laneShare_of_past {s : State} {w : FieldWork} {n : Fin 4}
    (h : 11 ≤ (w.lanes.get n).step) : s.laneShare w n = (s, w) := by
  unfold State.laneShare
  rw [State.laneStep_past s n h]
  simp

theorem sharesTo_stylesShare (r : State × FieldWork) : SharesTo r (r.1.stylesShare r.2) := by
  unfold State.stylesShare
  split
  · exact .refl r
  · rename_i h
    exact ⟨_, .single (t := .styles) (Bool.eq_false_iff.mpr h)⟩

theorem sharesTo_slotShare (r : State × FieldWork) (k : Nat) : SharesTo r (r.1.slotShare r.2 k) := by
  unfold State.slotShare
  split
  · rename_i h
    exact ⟨_, .single (t := .slot k) (List.contains_iff_mem.mp h)⟩
  · exact .refl r

theorem sharesTo_laneShare (r : State × FieldWork) (n : Fin 4) : SharesTo r (r.1.laneShare r.2 n) := by
  by_cases h : (r.2.lanes.get n).step < 11
  · exact ⟨_, .single (t := .lane n) h⟩
  · rw [State.laneShare_of_past (by omega)]
    exact .refl r

theorem sharesTo_laneRest : ∀ (fuel : Nat) (r : State × FieldWork) (n : Fin 4),
    SharesTo r ((State.laneRest fuel r.1 n (r.2.lanes.get n)).1,
      { r.2 with lanes := r.2.lanes.set n (State.laneRest fuel r.1 n (r.2.lanes.get n)).2 })
  | 0, r, n => by
    simp only [State.laneRest, Four.set_get]
    exact .refl r
  | fuel + 1, r, n => by
    have h := sharesTo_laneRest fuel (r.1.laneShare r.2 n) n
    simp only [State.laneShare, Four.get_set_self, Four.set_set] at h
    exact (sharesTo_laneShare r n).trans h

theorem sharesTo_laneFinish (r : State × FieldWork) (n : Fin 4) : SharesTo r (r.1.laneFinish r.2 n) :=
  sharesTo_laneRest laneSteps r n

theorem State.laneFinish_step (s : State) (w : FieldWork) (n : Fin 4) :
    11 ≤ ((s.laneFinish w n).2.lanes.get n).step := by
  simp only [State.laneFinish, Four.get_set_self]
  exact State.laneRest_step laneSteps _ _ _ (Nat.le_add_left _ _)

theorem State.laneFinish_step_ne (s : State) (w : FieldWork) {m n : Fin 4} (h : m ≠ n) :
    (s.laneFinish w n).2.lanes.get m = w.lanes.get m := by
  simp only [State.laneFinish, Four.get_set_ne _ _ h]

/-- What one turn of a fold sets for its element, and no turn takes back, the fold sets for all. -/
theorem foldl_establishes {α β : Type} {f : β → α → β} {Q : α → β → Prop}
    (hset : ∀ b a, Q a (f b a)) (hkeep : ∀ b a a', Q a' b → Q a' (f b a)) :
    ∀ (l : List α) (b : β), ∀ a ∈ l, Q a (l.foldl f b)
  | x :: l, b, a, ha => by
    rcases List.mem_cons.mp ha with rfl | ha
    · exact List.foldlRecOn l f (hset b a) fun b hb x _ => hkeep b x a hb
    · exact foldl_establishes hset hkeep l (f b x) a ha

theorem sharesTo_finishStarted (r : State × FieldWork) : SharesTo r (r.1.finishStarted r.2) := by
  refine SharesTo.foldl (fun q n => ?_) fours r
  split
  · exact .refl q
  · exact sharesTo_laneFinish q n

/-- R130: after the lanes under way have finished, none is amid its work. -/
theorem State.finishStarted_step (s : State) (w : FieldWork) (n : Fin 4) :
    ((s.finishStarted w).2.lanes.get n).step = 0 ∨ 11 ≤ ((s.finishStarted w).2.lanes.get n).step := by
  refine foldl_establishes (Q := fun n (r : State × FieldWork) =>
    (r.2.lanes.get n).step = 0 ∨ 11 ≤ (r.2.lanes.get n).step) (fun r n => ?_) (fun r n m h => ?_)
    fours (s, w) n (mem_fours n)
  · split
    · rename_i h0
      exact .inl h0
    · exact .inr (State.laneFinish_step _ _ _)
  · split
    · exact h
    · by_cases hmn : m = n
      · subst hmn
        exact .inr (State.laneFinish_step _ _ _)
      · rwa [State.laneFinish_step_ne _ _ hmn]

theorem sharesTo_clockShare (r : State × FieldWork) : SharesTo r (r.1.clockShare r.2) := by
  unfold State.clockShare
  split
  · exact .refl r
  · rename_i h
    have hfin := sharesTo_finishStarted r
    have hdone : (r.1.finishStarted r.2).2.clockDone = r.2.clockDone := by
      refine List.foldlRecOn (motive := fun q : State × FieldWork => q.2.clockDone = r.2.clockDone) fours _ rfl
        fun q hq n _ => ?_
      split
      · exact hq
      · exact hq
    refine hfin.trans ⟨_, .single (t := .clock) ⟨?_, r.1.finishStarted_step r.2⟩⟩
    rw [hdone]
    exact Bool.eq_false_iff.mpr h

theorem sharesTo_fieldTok (r : State × FieldWork) (t : FieldTok) : SharesTo r (State.fieldTok r t) := by
  cases t with
  | styles => exact sharesTo_stylesShare r
  | slot k => exact sharesTo_slotShare r k
  | lane n => exact sharesTo_laneShare r n
  | clock => exact sharesTo_clockShare r

/-! ### A field start takes every share -/

/-- Every share of a field start has been taken. -/
structure FieldWork.Complete (w : FieldWork) : Prop where
  styles : w.stylesDone = true
  slots  : w.slotsLeft = []
  lanes  : ∀ n, 11 ≤ (w.lanes.get n).step
  clock  : w.clockDone = true

theorem State.takeShare_step (r : State × FieldWork) {t : FieldTok} (h : r.2.Due t) (n : Fin 4) :
    ((State.takeShare r t).2.lanes.get n).step =
      (r.2.lanes.get n).step + if t = .lane n then 1 else 0 := by
  cases t with
  | lane m =>
    by_cases hmn : m = n
    · subst hmn
      simp only [State.takeShare, State.laneShare, Four.get_set_self, if_true]
      exact State.laneStep_step _ _ h
    · simp [State.takeShare, State.laneShare, Four.get_set_ne _ _ (Ne.symm hmn), hmn]
  | _ => simp [State.takeShare]

/-- What is done stays done. -/
theorem State.takeShare_mono (r : State × FieldWork) {t : FieldTok} (h : r.2.Due t) :
    (r.2.stylesDone = true → (State.takeShare r t).2.stylesDone = true) ∧
    (r.2.slotsLeft = [] → (State.takeShare r t).2.slotsLeft = []) ∧
    (∀ n, 11 ≤ (r.2.lanes.get n).step → 11 ≤ ((State.takeShare r t).2.lanes.get n).step) := by
  refine ⟨?_, ?_, fun n hn => ?_⟩
  · cases t <;> simp_all [State.takeShare, State.laneShare]
  · cases t <;> simp_all [State.takeShare, State.laneShare]
  · rw [State.takeShare_step r h]
    omega

theorem SharesTo.stylesDone {r r' : State × FieldWork} : SharesTo r r' →
    r.2.stylesDone = true → r'.2.stylesDone = true
  | ⟨_, h⟩ => h.induct (P := fun q => q.2.stylesDone = true) fun q _ hd =>
      (State.takeShare_mono q hd).1

theorem SharesTo.slotsLeft {r r' : State × FieldWork} : SharesTo r r' →
    r.2.slotsLeft = [] → r'.2.slotsLeft = []
  | ⟨_, h⟩ => h.induct (P := fun q => q.2.slotsLeft = []) fun q _ hd =>
      (State.takeShare_mono q hd).2.1

theorem SharesTo.lane_done {r r' : State × FieldWork} {n : Fin 4} : SharesTo r r' →
    11 ≤ (r.2.lanes.get n).step → 11 ≤ (r'.2.lanes.get n).step
  | ⟨_, h⟩ => h.induct (P := fun q => 11 ≤ (q.2.lanes.get n).step) fun q _ hd =>
      (State.takeShare_mono q hd).2.2 n

/-- R54: the checks of all slots that are left leave none. -/
theorem State.slotShares_left : ∀ (l : List Nat) (r : State × FieldWork), r.2.slotsLeft = l →
    (l.foldl (fun q k => q.1.slotShare q.2 k) r).2.slotsLeft = []
  | [], _, h => h
  | k :: l, r, h => by
    refine State.slotShares_left l (r.1.slotShare r.2 k) ?_
    simp [State.slotShare, h]

theorem State.fieldRest_complete (r : State × FieldWork) :
    SharesTo r (State.fieldRest r) ∧ (State.fieldRest r).2.Complete := by
  unfold State.fieldRest
  extract_lets r1 r2 r3
  have h1 : SharesTo r r1 := sharesTo_stylesShare r
  have h2 : SharesTo r1 r2 := SharesTo.foldl (fun q k => sharesTo_slotShare q k) _ _
  have h3 : SharesTo r2 r3 := SharesTo.foldl (fun q n => sharesTo_laneFinish q n) _ _
  have h4 : SharesTo r3 (r3.1.clockShare r3.2) := sharesTo_clockShare r3
  have hstyles : r1.2.stylesDone = true := by
    simp only [r1, State.stylesShare]
    split
    · assumption
    · rfl
  have hslots : r2.2.slotsLeft = [] := State.slotShares_left _ r1 rfl
  have hlanes : ∀ n, 11 ≤ (r3.2.lanes.get n).step := fun n =>
    foldl_establishes (Q := fun n (q : State × FieldWork) => 11 ≤ (q.2.lanes.get n).step)
      (fun q n => State.laneFinish_step _ _ _)
      (fun q n m h => SharesTo.lane_done (sharesTo_laneFinish q n) h) fours r2 n (mem_fours n)
  refine ⟨((h1.trans h2).trans h3).trans h4, ?_, ?_, fun n => h4.lane_done (hlanes n), ?_⟩
  · exact ((h2.trans h3).trans h4).stylesDone hstyles
  · exact (h3.trans h4).slotsLeft hslots
  · unfold State.clockShare
    split
    · assumption
    · rfl

/-- R8, R54, R122, R124: a field start in ACTIVE is a sequence of shares, each due at its turn, that
leaves none. -/
theorem State.fieldShares_shares (s : State) (order : List FieldTok) :
    ∃ r, SharesTo (s, FieldWork.initial s) r ∧ r.2.Complete ∧ s.fieldShares order = r.1 := by
  have h1 : SharesTo (s, FieldWork.initial s)
      (order.foldl State.fieldTok (s, FieldWork.initial s)) :=
    SharesTo.foldl sharesTo_fieldTok _ _
  obtain ⟨h2, hc⟩ := State.fieldRest_complete (order.foldl State.fieldTok (s, FieldWork.initial s))
  exact ⟨_, h1.trans h2, hc, rfl⟩

/-- What holds before a field start's shares and every share keeps, holds after them. -/
theorem State.fieldShares_induct {P : State × FieldWork → Prop} {s : State} (order : List FieldTok)
    (h0 : P (s, FieldWork.initial s))
    (hstep : ∀ r t, r.2.Due t → P r → P (State.takeShare r t)) :
    ∃ w, FieldWork.Complete w ∧ P (s.fieldShares order, w) := by
  obtain ⟨r, ⟨ts, h⟩, hc, heq⟩ := s.fieldShares_shares order
  rw [heq]
  exact ⟨r.2, hc, h.induct hstep h0⟩

end Sys2Proof.Machine

/-! ## What most commands leave: lanes, kill latch, device state -/

namespace Sys2Proof.Machine

/-! ### Fired actions (R128, R129, R133) and the clock's share (R124) -/

/-- A property of states that the clock's share keeps: it outlasts an advance of the clock, a disarmed
schedule entry, an event, a lane action and a SET_STYLE. -/
structure KeptByFiring (P : State → Prop) : Prop where
  clock : ∀ s c, P s → P { s with clock := c }
  sched : ∀ s i e, P s → P (s.setSchedEntry i e)
  raise : ∀ s e, P s → P (s.raise e)
  act   : ∀ s a n, P s → P (s.actOnLane a n).1
  style : ∀ s n k, P s → P (s.setLane n ((s.lane n).setStyle k))

/-- R2: what each lane's action keeps, the lanes of a mask keep. -/
theorem State.overLanes_induct {P : State → Prop} {act : State → Fin 4 → State × Option ResultCode}
    (hact : ∀ s n, P s → P (act s n).1) :
    ∀ (ns : List (Fin 4)) (s : State), P s → P (State.overLanes act s ns).1
  | [], _, h => h
  | n :: ns, s, h => State.overLanes_induct hact ns _ (hact s n h)

section
variable {P : State → Prop} (hP : KeptByFiring P)
include hP

theorem KeptByFiring.raiseIf {s : State} (c : Bool) (e : Event) (h : P s) : P (s.raiseIf c e) := by
  cases c
  · exact h
  · exact hP.raise s e h

theorem KeptByFiring.fireOnLanes {s : State} (a : LaneAction) (mask : BitVec 4) (h : P s) :
    P (s.fireOnLanes a mask) :=
  hP.raiseIf _ _ (State.overLanes_induct (fun s n => hP.act s a n) _ s h)

theorem KeptByFiring.fireEntry {s : State} (e : SchedEntry) (h : P s) : P (s.fireEntry e) := by
  unfold State.fireEntry
  split
  · exact hP.fireOnLanes _ _ h
  · exact List.foldlRecOn _ _ h fun s hs n _ => hP.style s n _ hs

theorem KeptByFiring.fireIfDue {s : State} (i : Nat) (h : P s) : P (s.fireIfDue i) := by
  unfold State.fireIfDue
  dsimp only
  split
  · apply hP.fireEntry
    split
    · exact h
    · exact hP.sched s i _ h
  · exact h

/-- R128: the schedule's share of a tick. -/
theorem KeptByFiring.fireSchedule {s : State} (h : P s) : P s.fireSchedule :=
  hP.raiseIf _ _ (List.foldlRecOn _ _ h fun _ hs i _ => hP.fireIfDue i hs)

/-- R124: the clock's share of a field start. -/
theorem KeptByFiring.accumulate {s : State} (h : P s) : P s.accumulate := by
  unfold State.accumulate
  split
  · exact h
  · dsimp only
    split
    · exact hP.fireSchedule (hP.clock _ _ (hP.clock _ _ h))
    · exact hP.clock _ _ h

end

/-! ### The stage: what the laws of the lanes, of the kill latch and of the device read -/

/-- Everything that the laws of R1, R6, R22, R137 and R165 read: the lanes, the reset and kill pins, the
device state, the loader's bus, the cue outputs and the latch, and outside ACTIVE the quote slots. -/
structure State.StageFrame (s t : State) : Prop where
  lanes  : t.lanes = s.lanes
  resetN : t.pins.resetN = s.pins.resetN
  killN  : t.pins.killN = s.pins.killN
  device : t.device = s.device
  bus    : t.loader.bus = s.loader.bus
  out0   : t.cue.out0 = s.cue.out0
  out1   : t.cue.out1 = s.cue.out1
  latch  : t.cue.latch = s.cue.latch
  quotes : s.device ≠ .active → t.quotes = s.quotes

theorem State.StageFrame.refl (s : State) : s.StageFrame s := by
  constructor <;> intros <;> rfl

theorem State.StageFrame.trans {s t u : State} (h : s.StageFrame t) (k : t.StageFrame u) :
    s.StageFrame u where
  lanes := k.lanes.trans h.lanes
  resetN := k.resetN.trans h.resetN
  killN := k.killN.trans h.killN
  device := k.device.trans h.device
  bus := k.bus.trans h.bus
  out0 := k.out0.trans h.out0
  out1 := k.out1.trans h.out1
  latch := k.latch.trans h.latch
  quotes := fun hd => (k.quotes (h.device ▸ hd)).trans (h.quotes hd)

theorem State.StageFrame.quiet (s : State) : s.StageFrame s.quiet := by
  constructor <;> intros <;> rfl

theorem State.StageFrame.emit (s : State) (e : PortEvent) : s.StageFrame (s.emit e) := by
  constructor <;> intros <;> rfl

theorem State.StageFrame.emitWrite (s : State) (src : Source) (size : BeatSize) (bs : List Beat) :
    s.StageFrame (s.emitWrite src size bs) := by
  unfold State.emitWrite
  split
  · exact .refl s
  · exact .emit s _

theorem State.StageFrame.raise (s : State) (e : Event) : s.StageFrame (s.raise e) := by
  constructor <;> intros <;> rfl

theorem State.StageFrame.raiseIf (s : State) (c : Bool) (e : Event) : s.StageFrame (s.raiseIf c e) := by
  unfold State.raiseIf
  split
  · exact .raise s e
  · exact .refl s

theorem State.StageFrame.setInput (s : State) (n : Fin 4) (i : CueInput) :
    s.StageFrame (s.setInput n i) := by
  constructor <;> intros <;> rfl

theorem State.StageFrame.complete (s : State) (e : IntakeEntry) (r : ResultCode) :
    s.StageFrame (s.complete e r) := by
  rw [State.complete_eq]
  constructor <;> intros <;> rfl

/-! ### The system port keeps the stage (R46, R51, R144, R153) -/

/-- What the ports leave, the quote slots too outside ACTIVE. -/
structure State.BusFrame (s t : State) : Prop where
  port   : s.PortFrame t
  quotes : s.device ≠ .active → t.quotes = s.quotes

theorem State.BusFrame.refl (s : State) : s.BusFrame s := ⟨.refl s, fun _ => rfl⟩

theorem State.BusFrame.trans {s t u : State} (h : s.BusFrame t) (k : t.BusFrame u) : s.BusFrame u :=
  ⟨h.port.trans k.port, fun hd => (k.quotes (h.port.device ▸ hd)).trans (h.quotes hd)⟩

theorem State.BusFrame.stage {s t : State} (h : s.BusFrame t) : s.StageFrame t where
  lanes := h.port.lanes
  resetN := congrArg Pins.resetN h.port.pins
  killN := congrArg Pins.killN h.port.pins
  device := h.port.device
  bus := congrArg Loader.bus h.port.loader
  out0 := congrArg CueUnit.out0 h.port.cue
  out1 := congrArg CueUnit.out1 h.port.cue
  latch := congrArg CueUnit.latch h.port.cue
  quotes := h.quotes

/-- R46: the monitor commits to a quote slot in ACTIVE alone. -/
theorem State.BusFrame.monitor (s : State) (b : Beat) : s.BusFrame (s.monitor b) := by
  refine ⟨.monitor s b, fun hd => ?_⟩
  unfold State.monitor
  split
  · split <;> rfl
  · rw [if_neg hd]
  · rfl

theorem State.BusFrame.settle (s : State) (n : Nat) (c : Command) (d : Decision) :
    s.BusFrame (s.settle n c d) := by
  refine ⟨.settle s n c d, fun _ => ?_⟩
  cases d with
  | answer r =>
    simp only [State.settle, State.handOver_eq]
  | append | discard | hold => rfl

theorem State.BusFrame.takeBeats : ∀ (bs : List Beat) (s : State), s.BusFrame (s.takeBeats bs).state
  | [], s => .refl s
  | b :: bs, s => by
    unfold State.takeBeats
    split
    · exact (State.BusFrame.monitor s b).trans (takeBeats bs _)
    · dsimp only
      split
      · exact .refl s
      · exact ((State.BusFrame.monitor s b).trans (.settle _ _ _ _)).trans (takeBeats bs _)

theorem State.BusFrame.pass (t : Taken) (size : BeatSize) (priorErr : Bool) (rs : List MemResp) :
    t.state.BusFrame (t.pass size priorErr rs) := by
  refine ⟨Taken.pass_frame t size priorErr rs, fun hd => ?_⟩
  have hw := (State.StageFrame.emitWrite t.state .system size t.passed).quotes hd
  unfold Taken.pass
  dsimp only
  split
  · exact hw
  · exact hw

theorem State.BusFrame.takeTxn (s : State) (t : SysTxn) : s.BusFrame (s.takeTxn t) := by
  cases t with
  | write w => exact (State.BusFrame.takeBeats w.beats s).trans (.pass _ _ _ _)
  | read r => exact ⟨.takeTxn s _, fun _ => rfl⟩

theorem State.BusFrame.takeWaiting : ∀ (ts : List SysTxn) (s : State), s.BusFrame (s.takeWaiting ts)
  | [], s => ⟨.takeWaiting [] s, fun _ => rfl⟩
  | t :: ts, s => by
    unfold State.takeWaiting
    split
    · exact ⟨by constructor <;> rfl, fun _ => rfl⟩
    · exact (State.BusFrame.takeTxn s t).trans (takeWaiting ts _)

theorem State.BusFrame.releaseBeats (s : State) (need : HoldNeed) (bs : List Beat) :
    s.BusFrame (s.releaseBeats need bs).state := by
  cases bs with
  | nil => exact .refl s
  | cons b bs =>
    unfold State.releaseBeats
    dsimp only
    split
    · exact (State.BusFrame.monitor s b).trans (.takeBeats bs _)
    · split
      · exact .refl s
      · exact ((State.BusFrame.monitor s b).trans (.settle _ _ _ _)).trans (.takeBeats bs _)

theorem State.BusFrame.expireBeats (s : State) (bs : List Beat) :
    s.BusFrame (s.expireBeats bs).state := by
  cases bs with
  | nil => exact .refl s
  | cons b bs =>
    unfold State.expireBeats
    dsimp only
    split
    · exact (State.BusFrame.monitor s b).trans (.takeBeats bs _)
    · exact ((State.BusFrame.monitor s b).trans (.settle _ 0 _ (.discard))).trans (.takeBeats bs _)

theorem State.BusFrame.dropHeld (s : State) : s.BusFrame s.dropHeld :=
  ⟨by constructor <;> rfl, fun _ => rfl⟩

theorem State.BusFrame.releaseHeld (s : State) : s.BusFrame s.releaseHeld := by
  unfold State.releaseHeld
  split
  · exact .refl s
  · exact (((State.BusFrame.dropHeld s).trans (.releaseBeats _ _ _)).trans
      (.pass _ _ _ _)).trans (.takeWaiting _ _)

theorem State.BusFrame.expireHeld (s : State) : s.BusFrame s.expireHeld := by
  unfold State.expireHeld
  split
  · exact .refl s
  · exact (((State.BusFrame.dropHeld s).trans (.expireBeats _ _)).trans
      (.pass _ _ _ _)).trans (.takeWaiting _ _)

/-! ### The commands that keep the stage -/

/-- What an effect keeps whatever its argument, it keeps with the argument's check. -/
theorem orBadArg_induct {α : Type} {P : State → Prop} {a : Option α} {s : State}
    {f : α → State × ResultCode} (hs : P s) (hf : ∀ x, a = some x → P (f x).1) :
    P (orBadArg a s f).1 := by
  cases a with
  | none => exact hs
  | some x => exact hf x rfl

/-- R148, R149: what holds of a state that drives nothing, outlasts a completion and follows from the
effect of the command the intake takes, holds after the execution's event. -/
theorem State.runIf_induct {P : State → Prop} {s : State} {isMine : Nat → Bool} {eff : Effect}
    (hquiet : P s.quiet) (hcomplete : ∀ t e r, P t → P (t.complete e r))
    (heff : ∀ e, s.quiet.nextCommand = some e → isMine e.command.code = true →
      P (eff e.command s.quiet).1) : P (s.runIf isMine eff) := by
  rcases s.runIf_cases isMine eff with h | ⟨e, hn, hm, h⟩
  · rwa [h]
  · rw [h]
    exact hcomplete _ _ _ (heff e hn hm)

/-- A command whose effect keeps the stage keeps it. -/
theorem State.StageFrame.runIf {s : State} {isMine : Nat → Bool} {eff : Effect}
    (heff : ∀ c, s.quiet.StageFrame (eff c s.quiet).1) : s.StageFrame (s.runIf isMine eff) :=
  State.runIf_induct (.quiet s) (fun t e r h => h.trans (.complete t e r)) fun e _ _ =>
    (State.StageFrame.quiet s).trans (heff e.command)

end Sys2Proof.Machine

namespace Sys2Proof

/-- The commands whose events reach no lane, cue output or pin, and neither the device state nor the
loader. -/
def Instr.offStage : Instr → Bool
  | .itemDefine | .itemDrop | .textSegment | .styleColors | .styleForm | .clockSet | .scheduleSet
  | .scheduleClear | .cueSet | .eventMask | .eventAck | .badCommand | .systemWrite _ | .systemRead _
  | .heldWriteRelease | .stallLimitExpiry | .resultWrite _ _ | .writeBackDrain _ | .reportWrite _ _ _
  | .scanBeat _ _ _ | .scanWrite _ => true
  | _ => false

end Sys2Proof

namespace Sys2Proof.Machine

/-- An update of stores, clock, schedule, cue settings or event bits keeps the stage. -/
theorem State.StageFrame.ofEq {s t : State} (h : t =
    { s with
      items := t.items, segments := t.segments, styles := t.styles, clock := t.clock
      schedule := t.schedule, cue := { s.cue with inputs := t.cue.inputs }, own := t.own, out := t.out
      rep := t.rep }) : s.StageFrame t := by
  rw [h]
  constructor <;> intros <;> rfl

/-! The effects that reach the stores, the clock, the schedule, the cue settings or the event bits alone
(R110 to R135, R159, R160). -/

section
variable (c : Command) (s : State)

theorem itemDefineEffect_stage : s.StageFrame (itemDefineEffect c s).1 := by
  refine orBadArg_induct (.refl s) fun i _ => orBadArg_induct (.refl s) fun it _ => ?_
  split
  · exact .refl s
  · exact .ofEq rfl

theorem itemDropEffect_stage : s.StageFrame (itemDropEffect c s).1 := by
  refine orBadArg_induct (.refl s) fun i _ => ?_
  split
  · exact .refl s
  · split
    · exact .ofEq rfl
    · exact .refl s

theorem textSegmentEffect_stage : s.StageFrame (textSegmentEffect c s).1 := by
  refine orBadArg_induct (.refl s) fun a _ => ?_
  split
  · exact .refl s
  · exact .ofEq rfl

theorem styleColorsEffect_stage : s.StageFrame (styleColorsEffect c s).1 :=
  orBadArg_induct (.refl s) fun _ _ => .ofEq rfl

theorem styleFormEffect_stage : s.StageFrame (styleFormEffect c s).1 := by
  refine orBadArg_induct (.refl s) fun k _ => orBadArg_induct (.refl s) fun fl _ =>
    orBadArg_induct (.refl s) fun w _ => ?_
  split
  · exact .refl s
  · exact .ofEq rfl

theorem clockSetEffect_stage : s.StageFrame (clockSetEffect c s).1 :=
  orBadArg_induct (.refl s) fun _ _ => .ofEq rfl

theorem scheduleSetEffect_stage : s.StageFrame (scheduleSetEffect c s).1 :=
  orBadArg_induct (.refl s) fun _ _ => .ofEq rfl

theorem scheduleClearEffect_stage : s.StageFrame (scheduleClearEffect c s).1 := .ofEq rfl

theorem cueSetEffect_stage : s.StageFrame (cueSetEffect c s).1 :=
  orBadArg_induct (.refl s) fun _ _ => .ofEq rfl

theorem eventMaskEffect_stage : s.StageFrame (eventMaskEffect c s).1 :=
  orBadArg_induct (.refl s) fun _ _ => .ofEq rfl

theorem eventAckEffect_stage : s.StageFrame (eventAckEffect c s).1 := .ofEq rfl

end

/-! The own writes and the scan port (R93, R96, R155, R156, R162). -/

theorem State.StageFrame.writeResult (s : State) : s.StageFrame s.writeResult := by
  unfold State.writeResult
  split
  · exact .refl s
  · exact (State.StageFrame.ofEq rfl).trans (.emitWrite _ _ _ _)

theorem State.StageFrame.writeReport (s : State) (n : Nat) : s.StageFrame (s.writeReport n) := by
  unfold State.writeReport
  split
  · exact .refl s
  · exact (State.StageFrame.ofEq rfl).trans (.emitWrite _ _ _ _)

/-- What an event leaves where it occurs and where it does not, it leaves. -/
theorem State.StageFrame.ite {s t u : State} {p : Prop} [Decidable p] (ht : s.StageFrame t)
    (hu : s.StageFrame u) : s.StageFrame (if p then t else u) := by
  split
  · exact ht
  · exact hu

/-- What an `exec` that keeps the stage answers. -/
theorem next_eq {a b : State} (h : (.next a : Host.Outcome State Fault Refusal) = .next b) : a = b :=
  Host.Outcome.next.inj h

/-- Every command of `Instr.offStage` keeps the stage. -/
theorem exec_offStage {i : Instr} {s t : State} (hi : i.offStage = true) (h : exec i s = .next t) :
    s.StageFrame t := by
  have quiet := State.StageFrame.quiet s
  cases i
  case itemDefine => exact next_eq h ▸ .runIf fun c => itemDefineEffect_stage c _
  case itemDrop => exact next_eq h ▸ .runIf fun c => itemDropEffect_stage c _
  case textSegment => exact next_eq h ▸ .runIf fun c => textSegmentEffect_stage c _
  case styleColors => exact next_eq h ▸ .runIf fun c => styleColorsEffect_stage c _
  case styleForm => exact next_eq h ▸ .runIf fun c => styleFormEffect_stage c _
  case clockSet => exact next_eq h ▸ .runIf fun c => clockSetEffect_stage c _
  case scheduleSet => exact next_eq h ▸ .runIf fun c => scheduleSetEffect_stage c _
  case scheduleClear => exact next_eq h ▸ .runIf fun c => scheduleClearEffect_stage c _
  case cueSet => exact next_eq h ▸ .runIf fun c => cueSetEffect_stage c _
  case eventMask => exact next_eq h ▸ .runIf fun c => eventMaskEffect_stage c _
  case eventAck => exact next_eq h ▸ .runIf fun c => eventAckEffect_stage c _
  case badCommand => exact next_eq h ▸ .runIf fun _ => .refl _
  case systemWrite w =>
    exact next_eq h ▸ .ite (quiet.trans (State.BusFrame.takeWaiting _ _).stage) quiet
  case systemRead r =>
    exact next_eq h ▸ .ite (quiet.trans (State.BusFrame.takeWaiting _ _).stage) quiet
  case heldWriteRelease =>
    exact next_eq h ▸ .ite (quiet.trans (State.BusFrame.releaseHeld _).stage) quiet
  case stallLimitExpiry =>
    exact next_eq h ▸ .ite quiet (quiet.trans (State.BusFrame.expireHeld _).stage)
  case resultWrite scanWaits sysWaits =>
    exact next_eq h ▸ .ite (quiet.trans (.writeResult _)) quiet
  case writeBackDrain reply => exact next_eq h ▸ .ite (quiet.trans (.ofEq rfl)) quiet
  case reportWrite scanWaits sysWaits more =>
    exact next_eq h ▸ .ite (quiet.trans (.writeReport _ _)) quiet
  case scanBeat index words reply =>
    refine next_eq h ▸ .ite ?_ quiet
    cases reply <;> exact quiet.trans (.emit _ _)
  case scanWrite addr => exact next_eq h ▸ .ite (quiet.trans (.emit _ _)) quiet
  all_goals cases hi

end Sys2Proof.Machine

/-! ## The other commands on the stage, and what keeps a law of the lanes -/

namespace Sys2Proof.Machine

/-! ### Loads and the entry to LOADING (R150, R164, R169, R170) -/

theorem State.StageFrame.snapshot (s : State) : s.StageFrame s.snapshot := .ofEq rfl

theorem State.StageFrame.handOver (s : State) (r : ResultWord) : s.StageFrame (s.handOver r) := by
  rw [State.handOver_eq]
  exact .ofEq rfl

theorem State.StageFrame.intake (s : State) (q : Intake) : s.StageFrame { s with intake := q } := by
  constructor <;> intros <;> rfl

theorem State.StageFrame.completeReload (s : State) (r : ResultCode) :
    s.StageFrame (s.completeReload r) := by
  unfold State.completeReload
  split
  · exact (State.StageFrame.intake s _).trans ((State.StageFrame.intake _ _).trans (.handOver _ _))
  · exact .refl s

theorem State.StageFrame.endBus (s : State) : s.StageFrame s.endBus := by
  unfold State.endBus
  dsimp only
  split
  · exact (State.StageFrame.emit s _).trans (.emit _ _)
  · exact (State.StageFrame.emit s _).trans (.emit _ _)
  · exact .emit s _
  · exact .emit s _

/-- R164, R169: on the stage, the end of a good load is ACTIVE with the loader idle. -/
theorem State.StageFrame.loadDone (s : State) (i : Image) (c : ImageConfig) :
    State.StageFrame { s with device := .active, loader := { s.loader with bus := .idle } }
      (s.loadDone i c) := by
  refine State.StageFrame.trans ?_
    ((State.StageFrame.raise _ _).trans ((State.StageFrame.snapshot _).trans (.completeReload _ _)))
  constructor <;> intros <;> rfl

/-- R164, R169: on the stage, the end of a failed load is UNCONFIGURED with the loader idle. -/
theorem State.StageFrame.loadFail (s : State) (r : LoadReason) :
    State.StageFrame { s with device := .unconfigured, loader := { s.loader with bus := .idle } }
      (s.loadFail r) := by
  refine State.StageFrame.trans ?_
    ((State.StageFrame.raise _ _).trans ((State.StageFrame.snapshot _).trans (.completeReload _ _)))
  constructor <;> intros <;> rfl

/-- R150, R170: on the stage, the entry to LOADING clears the lanes and the quote slots. -/
theorem State.StageFrame.enterLoading (s : State) :
    State.StageFrame
      { s with device := .loading, loader := Loader.begin, lanes := Four.all Lane.initial, quotes := [] }
      s.enterLoading := by
  unfold State.enterLoading
  dsimp only
  rw [State.releaseUnmerged_eq rfl]
  constructor <;> intros <;> rfl

/-- R168, R169: what a byte of the image can do: it is read, or the load ends. -/
theorem State.afterByte_cases (s : State) :
    s.afterByte = s ∨ (∃ r, s.afterByte = s.failLoad r) ∨
      ∃ i c, s.afterByte = s.endBus.loadDone i c := by
  unfold State.afterByte
  split
  · exact .inl rfl
  · exact .inr (.inl ⟨_, rfl⟩)
  · split
    · exact .inr (.inr ⟨_, _, rfl⟩)
    · exact .inr (.inl ⟨_, rfl⟩)

/-! ### RELOAD (R150, R171) -/

/-- R150, R171: what RELOAD can do: nothing, its refusal, or its acceptance with an entry to LOADING or
with ABORTED answers to come. -/
theorem State.runReload_cases (s : State) :
    s.runReload = s ∨ s.mayExecute = true ∧
      ((∃ e, s.runReload = s.complete e .badState) ∨ s.runReload = s.enterLoading ∨
        ∃ q, s.runReload = { s with intake := q }) := by
  unfold State.runReload
  split
  · exact .inl rfl
  · rename_i e he
    have hm := (State.nextCommand_eq_some.mp he).1
    split
    · exact .inl rfl
    · refine .inr ⟨hm, ?_⟩
      split
      · exact .inl ⟨_, rfl⟩
      · unfold State.acceptReload
        split
        · exact .inr (.inl rfl)
        · exact .inr (.inr ⟨_, rfl⟩)

/-- R150: what an ABORTED answer can do on the stage: nothing, or the entry to LOADING. -/
theorem State.abortNext_cases (s : State) :
    s.StageFrame s.abortNext ∨ ∃ t, s.StageFrame t ∧ s.abortNext = t.enterLoading := by
  unfold State.abortNext
  split
  · rename_i r e rest _
    have h : s.StageFrame (State.handOver (State.freeSlot
        { s with intake := { s.intake with queue := r :: rest } } e.slot)
        (e.command.answer e.slot .aborted)) :=
      (State.StageFrame.intake s _).trans ((State.StageFrame.intake _ _).trans (.handOver _ _))
    dsimp only
    split
    · exact .inr ⟨_, h, rfl⟩
    · exact .inl h
  · exact .inl (.refl s)

/-! ### Lane actions fired by commands, by the schedule and by cue inputs -/

/-- A property of the stage that lane actions keep. -/
structure KeptByActs (P : State → Prop) : Prop where
  stage : ∀ {s t}, P s → s.StageFrame t → P t
  act   : ∀ s a n, P s → P (s.actOnLane a n).1

section
variable {P : State → Prop} (hP : KeptByActs P)
include hP

theorem KeptByActs.fireOnLanes {s : State} (a : LaneAction) (mask : BitVec 4) (h : P s) :
    P (s.fireOnLanes a mask) := by
  have hover := State.overLanes_induct (fun s n => hP.act s a n) (maskLanes mask) s h
  exact hP.stage hover (.raiseIf _ _ _)

/-- R2, R11: a lane action on the lanes of a command's mask. -/
theorem KeptByActs.maskEffect (a : LaneAction) (c : Command) {s : State} (h : P s) :
    P (maskEffect a c s).1 := by
  unfold Machine.maskEffect
  split
  · exact h
  · exact State.overLanes_induct (fun s n => hP.act s a n) _ s h

/-- R132, R133: the sampling of a cue input. -/
theorem KeptByActs.sampleCue {s : State} (n : Fin 4) (h : P s) : P (s.sampleCue n) := by
  have hset := fun i => hP.stage h (.setInput s n i)
  unfold State.sampleCue
  dsimp only
  split
  · unfold State.fireCue
    split
    · exact hset _
    · unfold State.captureCue
      dsimp only
      split
      · exact hset _
      · exact hP.stage (hset _) ((State.StageFrame.setInput _ _ _).trans (.raise _ _))
    · exact hP.fireOnLanes _ _ (hset _)
  · exact hset _

theorem KeptByActs.examineLine {s : State} (line : Nat) (h : P s) : P (s.examineLine line) := by
  unfold State.examineLine
  split
  · exact hP.stage h (.snapshot s)
  · exact h

/-- R94, R131, R161: the shares of a scan read. -/
theorem KeptByActs.handLine {s : State} (line : Nat) (order : List ReadTok) (h : P s) :
    P (s.handLine line order) := by
  unfold State.handLine
  refine List.foldlRecOn (motive := fun r : State × ReadWork => P r.1) _ _
    (hP.stage h (by constructor <;> intros <;> rfl)) fun r hr t _ => ?_
  cases t with
  | cue n =>
    simp only [State.readTok]
    split
    · exact hP.sampleCue n hr
    · exact hr
  | report =>
    simp only [State.readTok]
    split
    · exact hP.examineLine line hr
    · exact hr

/-- What lane actions and SET_STYLE keep of the stage, the schedule and the clock keep. -/
theorem KeptByActs.firing (hstyle : ∀ s n k, P s → P (s.setLane n ((s.lane n).setStyle k))) :
    KeptByFiring P where
  clock := fun _ _ h => hP.stage h (.ofEq rfl)
  sched := fun _ _ _ h => hP.stage h (.ofEq rfl)
  raise := fun s e h => hP.stage h (.raise s e)
  act := hP.act
  style := hstyle

end

/-! ### Laws of the lanes -/

/-- A law of the lanes alone that every change of the lanes keeps. -/
structure LanesKept (P : State → Prop) : Prop where
  lanes      : ∀ {s t : State}, P s → t.lanes = s.lanes → P t
  initial    : ∀ {t : State}, t.lanes = Four.all Lane.initial → P t
  act        : ∀ s a n, P s → P (s.actOnLane a n).1
  style      : ∀ s n k, P s → P (s.setLane n ((s.lane n).setStyle k))
  form       : ∀ s c, P s → P (laneFormEffect c s).1
  motion     : ∀ (s : State) n (c : Command), P s → P (s.setLane n ((s.lane n).offerMotion c.motion))
  restore    : ∀ (s : State) n b, P s → P (s.setLane n ((s.lane n).restore b))
  enqueue    : ∀ s c, P s → P (enqueueEffect c s).1
  dequeue    : ∀ s c, P s → P (dequeueEffect c s).1
  clear      : ∀ s c, P s → P (clearEffect c s).1
  kill       : ∀ s, P s → P s.killLanes
  field      : ∀ s order, P s → P (s.fieldShares order)
  passLimit  : ∀ {s t n}, P s → exec (.passLimitReached n) s = .next t → P t
  pageEnd    : ∀ {s t n}, P s → exec (.pageEnd n) s = .next t → P t
  holdExpiry : ∀ {s t n k}, P s → exec (.holdExpiry n k) s = .next t → P t
  fadeOutEnd : ∀ {s t n}, P s → exec (.fadeOutEnd n) s = .next t → P t

section
variable {P : State → Prop} (hP : LanesKept P)
include hP

theorem LanesKept.stage {s t : State} (h : P s) (k : s.StageFrame t) : P t := hP.lanes h k.lanes

theorem LanesKept.acts : KeptByActs P := ⟨hP.stage, hP.act⟩

theorem LanesKept.runIf {s : State} {isMine : Nat → Bool} {eff : Effect} (h : P s)
    (heff : ∀ c, P (eff c s.quiet).1) : P (s.runIf isMine eff) :=
  State.runIf_induct (hP.stage h (.quiet s)) (fun t e r ht => hP.stage ht (.complete t e r))
    fun e _ _ => heff e.command

theorem LanesKept.enterLoading (s : State) : P s.enterLoading :=
  hP.initial (State.StageFrame.enterLoading s).lanes

theorem LanesKept.failLoad {s : State} (r : LoadReason) (h : P s) : P (s.failLoad r) :=
  hP.lanes (hP.stage h (.endBus s)) (State.StageFrame.loadFail s.endBus r).lanes

theorem LanesKept.killFall {s : State} (h : P s) : P s.killFall := by
  unfold State.killFall
  split
  · exact hP.stage h (.raise _ _)
  · exact hP.lanes (hP.kill s h) rfl

theorem LanesKept.receiveByte {s : State} (b : Byte) (h : P s) : P (s.receiveByte b) := by
  unfold State.receiveByte
  generalize hu : { s with loader :=
    { s.loader with bus := .reading, staging := s.loader.staging ++ [b] } } = u
  have h' : P u := hP.lanes h (hu ▸ rfl)
  rcases u.afterByte_cases with e | ⟨r, e⟩ | ⟨i, c, e⟩
  · rwa [e]
  · rw [e]
    exact hP.failLoad r h'
  · rw [e]
    exact hP.lanes (hP.stage h' (.endBus u)) (State.StageFrame.loadDone _ i c).lanes

theorem LanesKept.restoreEffect (c : Command) {s : State} (h : P s) : P (restoreEffect c s).1 := by
  refine orBadArg_induct h fun b _ => ?_
  split
  · exact h
  · split
    · exact h
    · exact List.foldlRecOn _ _ (hP.lanes h rfl) fun s hs n _ => hP.restore s n b hs

/-- Every command keeps such a law. -/
theorem LanesKept.exec {i : Instr} {s t : State} (h : P s) (hx : exec i s = .next t) : P t := by
  have quiet : P s.quiet := hP.stage h (.quiet s)
  have ite : ∀ {p : Prop} [Decidable p] {u v : State}, P u → P v → P (if p then u else v) :=
    fun hu hv => by split; exacts [hu, hv]
  by_cases hoff : i.offStage = true
  · exact hP.stage h (exec_offStage hoff hx)
  cases i
  case laneForm => exact next_eq hx ▸ hP.runIf h fun c => hP.form _ c quiet
  case laneMotion =>
    exact next_eq hx ▸ hP.runIf h fun c => orBadArg_induct quiet fun n _ => hP.motion _ n c quiet
  case take => exact next_eq hx ▸ hP.runIf h fun c => hP.acts.maskEffect _ c quiet
  case start => exact next_eq hx ▸ hP.runIf h fun c => hP.acts.maskEffect _ c quiet
  case stop =>
    exact next_eq hx ▸ hP.runIf h fun c =>
      orBadArg_induct quiet fun a _ => hP.acts.maskEffect a c quiet
  case hold => exact next_eq hx ▸ hP.runIf h fun c => hP.acts.maskEffect _ c quiet
  case resume => exact next_eq hx ▸ hP.runIf h fun c => hP.acts.maskEffect _ c quiet
  case restore => exact next_eq hx ▸ hP.runIf h fun c => hP.restoreEffect c quiet
  case enqueue => exact next_eq hx ▸ hP.runIf h fun c => hP.enqueue _ c quiet
  case dequeue => exact next_eq hx ▸ hP.runIf h fun c => hP.dequeue _ c quiet
  case clear => exact next_eq hx ▸ hP.runIf h fun c => hP.clear _ c quiet
  case cueoutLevel =>
    refine next_eq hx ▸ hP.runIf h fun c => orBadArg_induct quiet fun ops _ => ?_
    split
    · exact quiet
    · exact hP.lanes quiet rfl
  case reinit => exact next_eq hx ▸ hP.runIf h fun c => hP.initial rfl
  case reload =>
    rcases s.quiet.runReload_cases with e | ⟨_, ⟨x, e⟩ | e | ⟨q, e⟩⟩ <;>
      refine next_eq hx ▸ e.symm ▸ ?_
    · exact quiet
    · exact hP.stage quiet (.complete _ _ _)
    · exact hP.enterLoading _
    · exact hP.lanes quiet rfl
  case abortAnswer =>
    refine next_eq hx ▸ ite ?_ quiet
    rcases s.quiet.abortNext_cases with e | ⟨u, _, e⟩
    · exact hP.stage quiet e
    · exact e ▸ hP.enterLoading u
  case scanRead addr burst levels order =>
    refine next_eq hx ▸ ite ?_ quiet
    dsimp only
    split
    · exact ite (hP.acts.handLine _ _ (hP.lanes quiet rfl)) (hP.lanes quiet rfl)
    · exact hP.lanes quiet rfl
  case fieldStart parity order =>
    exact next_eq hx ▸ ite (ite (hP.field _ _ (hP.lanes quiet rfl)) (hP.lanes quiet rfl)) quiet
  case passLimitReached n => exact hP.passLimit h hx
  case pageEnd n => exact hP.pageEnd h hx
  case holdExpiry n k => exact hP.holdExpiry h hx
  case fadeOutEnd n => exact hP.fadeOutEnd h hx
  case secondTick => exact next_eq hx ▸ ite ((hP.acts.firing hP.style).accumulate quiet) quiet
  case killLatchSet =>
    exact next_eq hx ▸ ite (ite (hP.killFall (hP.lanes quiet rfl)) (hP.lanes quiet rfl)) quiet
  case powerOnReset => exact next_eq hx ▸ hP.initial rfl
  case resetRelease straps killN =>
    exact next_eq hx ▸ ite quiet (ite (hP.lanes quiet rfl) (hP.lanes (hP.kill _ quiet) rfl))
  case busFreeStart => exact next_eq hx ▸ ite (hP.lanes quiet rfl) quiet
  case imageByteReceived b straps =>
    exact next_eq hx ▸ ite (hP.receiveByte b (hP.lanes quiet rfl)) quiet
  case noDevice straps => exact next_eq hx ▸ ite (hP.failLoad _ (hP.lanes quiet rfl)) quiet
  case arbitrationLost => exact next_eq hx ▸ ite (hP.lanes quiet rfl) quiet
  case busTimeout straps => exact next_eq hx ▸ ite quiet (hP.failLoad _ (hP.lanes quiet rfl))
  case killNRise => exact next_eq hx ▸ hP.lanes quiet rfl
  all_goals exact absurd rfl hoff

/-- Every step keeps such a law. -/
theorem LanesKept.step {s t : State} (h : P s) (hx : step s = .next t) : P t := by
  cases hp : s.pending with
  | nil =>
    rw [step_of_idle hp] at hx
    exact next_eq hx ▸ h
  | cons c rest =>
    rw [step_of_pending hp] at hx
    exact hP.exec (s := { s with pending := rest }) (hP.lanes h rfl) hx

end

end Sys2Proof.Machine

/-! ## What a step of a lane's field start work makes of the lane -/

namespace Sys2Proof.Machine

@[simp] theorem State.lane_raise (s : State) (e : Event) (n : Fin 4) : (s.raise e).lane n = s.lane n :=
  rfl

@[simp] theorem State.lane_raiseIf (s : State) (c : Bool) (e : Event) (n : Fin 4) :
    (s.raiseIf c e).lane n = s.lane n := by
  cases c <;> rfl

@[simp] theorem State.lane_killLanes (s : State) (n : Fin 4) : s.killLanes.lane n = (s.lane n).kill :=
  match n with
  | 0 => rfl
  | 1 => rfl
  | 2 => rfl
  | 3 => rfl

/-- R122: the style table's transfer changes the current styles alone. -/
theorem State.transferStyles_eq (s : State) :
    s.transferStyles = { s with styles := { s.styles with cur := s.transferStyles.styles.cur } } :=
  List.foldlRecOn (motive := fun t : State =>
    t = { s with styles := { s.styles with cur := t.styles.cur } }) _ State.transferStyle rfl
    fun t ht k _ => by
      unfold State.transferStyle
      rw [ht]

theorem State.transferStyles_lanes (s : State) : s.transferStyles.lanes = s.lanes := by
  rw [s.transferStyles_eq]

@[simp] theorem State.lane_transferStyles (s : State) (n : Fin 4) :
    s.transferStyles.lane n = s.lane n := congrArg (·.get n) s.transferStyles_lanes

/-- R8, R28, R41: all that the next step of lane `n`'s work can make of its lane. -/
inductive Lane.Stepped (s : State) (l : Lane) (w : LaneWork) : Lane → Prop
  | take : w.step = 0 → Lane.Stepped s l w l.takeApply
  | begin : w.step = 1 → Lane.Stepped s l w l.begin
  | advance : w.step = 2 → Lane.Stepped s l w (l.advance w.next).1
  | rebase : w.step = 3 → Lane.Stepped s l w (l.rebaseStep w.next).1
  | retire : w.step = 4 → Lane.Stepped s l w (l.retireStep s.items w.next).1
  | cross : w.step = 5 → l.state.works = true → Lane.Stepped s l w l.noteEdges
  | placeStrip (floor : Int) (u : Nat) : w.step = 6 → l.places = true → l.form.kind = .crawl →
      Lane.Stepped s l w (s.placeLoop floor u l).1
  | placePage (u : Nat) : w.step = 6 → l.places = true → l.form.kind = .flip → l.placed = [] →
      Lane.Stepped s l w (s.placePage u l).1
  | envelope : w.step = 7 → l.state.works = true → Lane.Stepped s l w
      { l with placed := l.placed.map fun p => { p with env := p.env.step (s.style p.style) } }
  | drain : w.step = 8 → Lane.Stepped s l w l.drainCheck
  | fade : w.step = 9 → Lane.Stepped s l w l.fadeStep
  | off : w.step = 10 → l.fadeEnds = true → Lane.Stepped s l w l.enterOff
  | keep : 5 ≤ w.step → Lane.Stepped s l w l

theorem State.placeStep_stepped (s : State) (n : Fin 4) {w : LaneWork} (h : w.step = 6) :
    Lane.Stepped s (s.lane n) w ((s.placeStep n w.next).lane n) := by
  have keep : Lane.Stepped s (s.lane n) w (s.lane n) := .keep (by omega)
  unfold State.placeStep
  dsimp only
  split
  · exact keep
  · rename_i hp
    have hp : (s.lane n).places = true := by simpa using hp
    split
    · rename_i hk
      rw [State.lane_raiseIf, State.lane_setLane_self]
      exact .placeStrip _ _ h hp hk
    · rename_i hk
      split
      · rename_i he
        rw [State.lane_raiseIf, State.lane_setLane_self]
        exact .placePage _ h hp hk (List.isEmpty_iff.mp he)
      · exact keep

/-- Each step makes of its lane what `Lane.Stepped` allows. -/
theorem State.laneStep_stepped (s : State) (n : Fin 4) (w : LaneWork) :
    Lane.Stepped s (s.lane n) w ((s.laneStep n w).1.lane n) := by
  by_cases hw : w.step < 11
  case neg =>
    rw [State.laneStep_past s n (by omega)]
    exact .keep (by omega)
  obtain h | h | h | h | h | h | h | h | h | h | h : w.step = 0 ∨ w.step = 1 ∨ w.step = 2 ∨
      w.step = 3 ∨ w.step = 4 ∨ w.step = 5 ∨ w.step = 6 ∨ w.step = 7 ∨ w.step = 8 ∨ w.step = 9 ∨
      w.step = 10 := by omega
  · rw [State.laneStep_take s n h, State.lane_setLane_self]
    exact .take h
  · rw [State.laneStep_begin s n h, State.lane_setLane_self]
    exact .begin h
  · rw [State.laneStep_advance s n h, State.lane_setLane_self]
    exact .advance h
  · rw [State.laneStep_rebase s n h, State.lane_setLane_self]
    exact .rebase h
  · rw [State.laneStep_retire s n h, State.lane_raiseIf, State.lane_setLane_self]
    exact .retire h
  · rw [State.laneStep_cross s n h]
    unfold State.crossStep
    dsimp only
    split
    · rename_i hw
      rw [State.lane_setLane_self]
      exact .cross h (Bool.and_eq_true_iff.mp hw).1
    · exact .keep (by omega)
  · rw [State.laneStep_place s n h]
    exact s.placeStep_stepped n h
  · rw [State.laneStep_envelope s n h]
    unfold State.envelopeStep
    dsimp only
    split
    · rename_i hw
      rw [State.lane_setLane_self]
      exact .envelope h hw
    · exact .keep (by omega)
  · rw [State.laneStep_drain s n h, State.lane_setLane_self]
    exact .drain h
  · rw [State.laneStep_fade s n h, State.lane_setLane_self]
    exact .fade h
  · rw [State.laneStep_off s n h]
    unfold State.offStep
    dsimp only
    split
    · rw [State.lane_raise, State.lane_setLane_self]
      rename_i hf
      exact .off h hf
    · exact .keep (by omega)

/-- R30: the rebase moves the offset and every start back. (The new offset stands as a variable: a proof by
`rfl` would have the kernel count it down.) -/
theorem Lane.rebase_shift (l : Lane) : ∃ o, o = l.offset - 268435456 ∧ l.rebase =
    { l with offset := o, placed := l.placed.map fun p => { p with start := p.start - 1048576 } } :=
  ⟨_, rfl, rfl⟩

/-! ### Retiring, skipping and placing (R31 to R37, R43) -/

/-- R31: what a retirement keeps, the retire step keeps. -/
theorem Lane.retireLoop_induct {Q : Lane → Prop} {items : Store Item}
    (hQ : ∀ l, Q l → Q (l.retireHead items).1) :
    ∀ (fuel : Nat) (l : Lane), Q l → Q (Lane.retireLoop items fuel l).1
  | 0, _, h => h
  | fuel + 1, l, h => by
    unfold Lane.retireLoop
    split
    · exact Lane.retireLoop_induct hQ fuel _ (hQ l h)
    · exact h

/-- R31, R43: the retire step leaves the lane, retires heads, or retires a page and clears its dwell
counter. -/
theorem Lane.retireStep_induct {Q : Lane → Prop} {items : Store Item} {l : Lane} (w : LaneWork)
    (h : Q l) (hcrawl : l.state.works = true → l.form.kind = .crawl → ∀ l, Q l → Q (l.retireHead items).1)
    (hflip : l.state.works = true → l.form.kind = .flip →
      Q { (l.retireHead items).1 with dwellCount := 0 }) : Q (l.retireStep items w).1 := by
  unfold Lane.retireStep
  split
  · exact h
  · rename_i hw
    have hw : l.state.works = true := by simpa using hw
    split
    · rename_i hk
      exact Lane.retireLoop_induct (hcrawl hw hk) _ l h
    · rename_i hk
      split
      · exact hflip hw hk
      · exact h

/-- R35, R36: what a skipped and a placed entry keep, the place step of a CRAWL lane keeps. -/
theorem State.placeLoop_induct {Q : Lane → Prop} {s : State} {floor : Int}
    (hskip : ∀ l e it, l.placedCount < l.ring.length → Q l → Q (l.skipEntry e it).1)
    (hplace : ∀ l it start, l.placedCount < Config.placedMax → l.placedCount < l.ring.length →
      l.candidate floor = some start → Q l → Q (s.placeAt l it start)) :
    ∀ (u : Nat) (l : Lane), Q l → Q (s.placeLoop floor u l).1
  | 0, _, h => h
  | u + 1, l, h => by
    unfold State.placeLoop
    split
    · exact h
    · rename_i hmax
      split
      · exact h
      · rename_i e he
        obtain ⟨hlt, _⟩ := List.getElem?_eq_some_iff.mp he
        split
        · exact State.placeLoop_induct hskip hplace u _ (hskip l e _ hlt h)
        · split
          · exact h
          · rename_i start hc
            exact State.placeLoop_induct hskip hplace u _
              (hplace l _ start (by omega) hlt hc h)

/-- R36, R43: what a skipped entry keeps and a placed page keeps, the place step of a FLIP lane keeps. -/
theorem State.placePage_induct {Q R : Lane → Prop} {s : State}
    (hskip : ∀ l e it, l.placedCount < l.ring.length → Q l → Q (l.skipEntry e it).1)
    (hnone : ∀ l, Q l → R l)
    (hplace : ∀ l it, l.placedCount < l.ring.length → Q l →
      R { s.placeAt l it 0 with dwellCount := 0 }) :
    ∀ (u : Nat) (l : Lane), Q l → R (s.placePage u l).1
  | 0, l, h => hnone l h
  | u + 1, l, h => by
    unfold State.placePage
    split
    · exact hnone l h
    · rename_i e he
      obtain ⟨hlt, _⟩ := List.getElem?_eq_some_iff.mp he
      split
      · exact State.placePage_induct hskip hnone hplace u _ (hskip l e _ hlt h)
      · exact hplace l _ hlt h

/-! ### Transfers (R54 to R57) -/

/-- R57: a transfer changes of a placement its envelope alone, and keeps the envelope's level. -/
structure Placement.Struck (p p' : Placement) : Prop where
  start    : p'.start = p.start
  width    : p'.width = p.width
  style    : p'.style = p.style
  lastEdge : p'.lastEdge = p.lastEdge
  noRepeat : p'.noRepeat = p.noRepeat
  level    : p'.env.level = p.env.level

theorem Placement.Struck.refl (p : Placement) : p.Struck p := ⟨rfl, rfl, rfl, rfl, rfl, rfl⟩

/-- What a strike keeps of each placement, a transfer keeps of a run. -/
theorem Placement.map_of_struck {α : Type} {f : Placement → α}
    (hf : ∀ p p', Placement.Struck p p' → f p' = f p) {ps qs : List Placement}
    (h : List.Forall₂ Placement.Struck ps qs) : qs.map f = ps.map f := by
  induction h with
  | nil => rfl
  | cons hp _ ih => rw [List.map_cons, List.map_cons, hf _ _ hp, ih]

theorem Envelope.letGo_level (e : Envelope) : e.letGo.level = e.level := by
  unfold Envelope.letGo
  split <;> rfl

theorem Envelope.strike_level (e : Envelope) (k : Style) (status : QuoteStatus)
    (tick : Option Direction) : (e.strike k status tick).level = e.level := by
  unfold Envelope.strike
  split
  · split <;> rfl
  · exact e.letGo_level
  · exact e.letGo_level

theorem State.strikeRun_struck (s : State) (slot : Nat) (status : QuoteStatus)
    (tick : Option Direction) : ∀ (ring : List Nat) (placed : List Placement),
      List.Forall₂ Placement.Struck placed (s.strikeRun slot status tick ring placed)
  | e :: ring, p :: placed => by
    refine .cons ?_ (State.strikeRun_struck s slot status tick ring placed)
    split
    · exact ⟨rfl, rfl, rfl, rfl, rfl, Envelope.strike_level _ _ _ _⟩
    · exact .refl p
  | [], placed => by
    rw [State.strikeRun]
    · exact List.forall₂_same.mpr fun p _ => .refl p
    · exact fun _ _ _ _ h => nomatch h
  | _ :: _, [] => .nil

/-- R54, R57: a transfer check changes of each lane the envelopes of its placed run alone. -/
theorem State.checkSlot_lane (s : State) (k : Nat) (n : Fin 4) :
    ∃ ps, List.Forall₂ Placement.Struck (s.lane n).placed ps ∧
      (s.checkSlot k).lane n = { s.lane n with placed := ps } := by
  have same : ∃ ps, List.Forall₂ Placement.Struck (s.lane n).placed ps ∧
      s.lane n = { s.lane n with placed := ps } :=
    ⟨_, List.forall₂_same.mpr fun p _ => .refl p, rfl⟩
  unfold State.checkSlot
  split
  · exact same
  · rename_i v _
    split
    · refine ⟨_, s.strikeRun_struck k v.status (tickDirection (s.quote k).shown v)
        (s.lane n).ring _, ?_⟩
      match n with
      | 0 => rfl
      | 1 => rfl
      | 2 => rfl
      | 3 => rfl
    · exact same

end Sys2Proof.Machine

/-! ## The law of the frame lines (R6) -/

namespace Sys2Proof.Machine

/-! ### Changes of a lane that bring no new frame line -/

/-- The change keeps the lane's forms and whether it is in OFF. -/
structure Lane.SameForms (l l' : Lane) : Prop where
  form : l'.form = l.form
  pend : l'.pendForm = l.pendForm
  off  : l'.state = .off ↔ l.state = .off

theorem Lane.SameForms.refl (l : Lane) : l.SameForms l := ⟨rfl, rfl, .rfl⟩

theorem Lane.SameForms.trans {l l' l'' : Lane} (h : l.SameForms l') (k : l'.SameForms l'') :
    l.SameForms l'' :=
  ⟨k.form.trans h.form, k.pend.trans h.pend, k.off.trans h.off⟩

theorem Lane.SameForms.rebase (l : Lane) : l.SameForms l.rebase := by
  obtain ⟨o, _, e⟩ := l.rebase_shift
  rw [e]
  exact ⟨rfl, rfl, .rfl⟩

theorem Lane.SameForms.countPass (l : Lane) : l.SameForms l.countPass := by
  unfold Lane.countPass Lane.passLimit
  dsimp only
  split
  · cases hl : l.state <;> exact ⟨rfl, rfl, by simp [hl]⟩
  · exact ⟨rfl, rfl, .rfl⟩

theorem Lane.SameForms.retireHead (items : Store Item) (l : Lane) :
    l.SameForms (l.retireHead items).1 := by
  unfold Lane.retireHead
  split
  · dsimp only
    split
    · refine Lane.SameForms.trans ?_ (.countPass _)
      exact ⟨rfl, rfl, .rfl⟩
    · exact ⟨rfl, rfl, .rfl⟩
  · exact .refl l

theorem Lane.SameForms.skipEntry (l : Lane) (e : Nat) (it : Item) :
    l.SameForms (l.skipEntry e it).1 := by
  unfold Lane.skipEntry
  dsimp only
  split <;> exact ⟨rfl, rfl, .rfl⟩

/-- What a change does to a lane's claims: they stay on the frame lines they had, and a lane in OFF
holds no pending form where it held none before. -/
structure Lane.Narrows (l l' : Lane) : Prop where
  off    : (l.state = .off → l.pendForm = none) → l'.state = .off → l'.pendForm = none
  claims : (l.state = .off → l.pendForm = none) →
    ∀ g ∈ l'.claims, ∃ f ∈ l.claims, g.top = f.top ∧ g.height = f.height

theorem Lane.SameForms.narrows {l l' : Lane} (h : l.SameForms l') : l.Narrows l' where
  off := fun hl ho => h.pend.trans (hl (h.off.mp ho))
  claims := fun _ g hg => by
    have hc : l'.claims = l.claims := by simp only [Lane.claims, h.form, h.pend, h.off]
    exact ⟨g, hc ▸ hg, rfl, rfl⟩

theorem Lane.Narrows.of_off {l l' : Lane} (ho : l'.state = .off) (hp : l'.pendForm = none) :
    l.Narrows l' :=
  ⟨fun _ _ => hp, fun _ g hg => by simp [Lane.claims, ho] at hg⟩

/-- A change of a lane outside OFF to forms on the frame lines of its claims. -/
theorem Lane.Narrows.of_lines {l l' : Lane} (hoff' : l'.state ≠ .off)
    (hf : ∃ f ∈ l.claims, l'.form.top = f.top ∧ l'.form.height = f.height)
    (hp : ∀ g ∈ l'.pendForm, ∃ f ∈ l.claims, g.top = f.top ∧ g.height = f.height) : l.Narrows l' where
  off := fun _ ho => absurd ho hoff'
  claims := fun _ g hg => by
    simp only [Lane.claims, hoff', if_false, List.mem_cons, Option.mem_toList] at hg
    rcases hg with rfl | hg
    · exact hf
    · exact hp g hg

theorem Lane.form_mem_claims {l : Lane} (h : l.state ≠ .off) : l.form ∈ l.claims := by
  simp [Lane.claims, h]

theorem Lane.pendForm_mem_claims {l : Lane} (h : l.state ≠ .off) {f : Form} (hf : l.pendForm = some f) :
    f ∈ l.claims := by
  simp [Lane.claims, h, hf]

theorem Lane.takeApply_state (l : Lane) : l.takeApply.state = l.state := by
  cases h : l.takeMark
  · rw [Lane.takeApply_of_not h]
  · rw [Lane.takeApply_eq h]

/-- R9: the take makes the pending form current, on the lines it claimed. -/
theorem Lane.Narrows.takeApply (l : Lane) : l.Narrows l.takeApply := by
  cases h : l.takeMark
  case false =>
    rw [Lane.takeApply_of_not h]
    exact (Lane.SameForms.refl l).narrows
  by_cases hoff : l.state = .off
  · refine .of_off (l.takeApply_state.trans hoff) ?_
    rw [Lane.takeApply_eq h]
  · refine .of_lines (l.takeApply_state ▸ hoff) ?_ ?_
    · rw [Lane.takeApply_eq h]
      cases hp : l.pendForm with
      | none => exact ⟨l.form, Lane.form_mem_claims hoff, rfl, rfl⟩
      | some f => exact ⟨f, Lane.pendForm_mem_claims hoff hp, rfl, rfl⟩
    · rw [Lane.takeApply_eq h]
      intro g hg
      cases hg

/-- R17: an entry to OFF drops every claim. -/
theorem Lane.Narrows.enterOff (l : Lane) : l.Narrows l.enterOff := .of_off rfl rfl

/-- R18: the setting of the kill latch. -/
theorem Lane.Narrows.kill (l : Lane) : l.Narrows l.kill := by
  unfold Lane.kill
  split
  case h_3 => exact .enterOff l
  all_goals
    rename_i h
    exact Lane.SameForms.narrows ⟨rfl, rfl, by simp [h]⟩

/-- R129: SET_STYLE leaves every form on its lines. -/
theorem Lane.Narrows.setStyle (l : Lane) (k : Nat) : l.Narrows (l.setStyle k) := by
  unfold Lane.setStyle
  split
  · rename_i ho
    exact ⟨fun hl _ => hl ho, fun _ g hg => by simp [Lane.claims, ho] at hg⟩
  · rename_i ho
    refine .of_lines ho ⟨l.form, Lane.form_mem_claims ho, rfl, rfl⟩ fun g hg => ?_
    obtain rfl := Option.some.inj hg
    cases hp : l.pendForm with
    | none => exact ⟨l.form, Lane.form_mem_claims ho, rfl, rfl⟩
    | some f => exact ⟨f, Lane.pendForm_mem_claims ho hp, rfl, rfl⟩

/-- R8: no step of a lane's field start work brings a new frame line. -/
theorem Lane.Stepped.narrows {s : State} {l l' : Lane} {w : LaneWork} (h : Lane.Stepped s l w l') :
    l.Narrows l' := by
  cases h with
  | take => exact .takeApply l
  | off => exact .enterOff l
  | keep => exact (Lane.SameForms.refl l).narrows
  | cross | envelope => exact Lane.SameForms.narrows ⟨rfl, rfl, .rfl⟩
  | begin =>
    unfold Lane.begin
    split
    · rename_i h
      exact Lane.SameForms.narrows ⟨rfl, rfl, by simp [h]⟩
    · exact (Lane.SameForms.refl l).narrows
  | advance =>
    unfold Lane.advance
    split
    · exact (Lane.SameForms.refl l).narrows
    · split
      · exact Lane.SameForms.narrows ⟨rfl, rfl, .rfl⟩
      · split <;> exact Lane.SameForms.narrows ⟨rfl, rfl, .rfl⟩
  | rebase =>
    rw [Lane.rebaseStep_eq]
    split
    · exact (Lane.SameForms.rebase l).narrows
    · exact (Lane.SameForms.refl l).narrows
  | retire =>
    refine Lane.SameForms.narrows (Lane.retireStep_induct _ (.refl l)
      (fun _ _ l' h => h.trans (.retireHead _ l')) fun _ _ => ?_)
    exact (Lane.SameForms.retireHead s.items l).trans ⟨rfl, rfl, .rfl⟩
  | placeStrip floor u =>
    exact Lane.SameForms.narrows (State.placeLoop_induct
      (fun l' e it _ h => h.trans (.skipEntry l' e it))
      (fun l' it start _ _ _ h => h.trans ⟨rfl, rfl, .rfl⟩) u l (.refl l))
  | placePage u =>
    exact Lane.SameForms.narrows (State.placePage_induct (Q := l.SameForms)
      (fun l' e it _ h => h.trans (.skipEntry l' e it)) (fun _ h => h)
      (fun l' it _ h => h.trans ⟨rfl, rfl, .rfl⟩) u l (.refl l))
  | drain =>
    unfold Lane.drainCheck
    split
    · rename_i h
      exact Lane.SameForms.narrows ⟨rfl, rfl, by simp [h.1]⟩
    · exact (Lane.SameForms.refl l).narrows
  | fade =>
    unfold Lane.fadeStep
    split <;> exact Lane.SameForms.narrows ⟨rfl, rfl, .rfl⟩

/-! ### The law under changes of the lanes -/

/-- Lanes that all narrow keep the law. -/
theorem State.LinesLaw.of_narrows {s t : State} (h : s.LinesLaw)
    (k : ∀ n, (s.lane n).Narrows (t.lane n)) : t.LinesLaw := by
  refine ⟨fun n => (k n).off (h.1 n), fun m n hmn f hf g hg => ?_⟩
  obtain ⟨f', hf', ht, hh⟩ := (k m).claims (h.1 m) f hf
  obtain ⟨g', hg', ht', hh'⟩ := (k n).claims (h.1 n) g hg
  have hapart := h.2 m n hmn f' hf' g' hg'
  unfold Form.apart at hapart ⊢
  omega

theorem State.LinesLaw.of_lanes {s t : State} (h : s.LinesLaw) (k : t.lanes = s.lanes) : t.LinesLaw :=
  h.of_narrows fun n => by
    have e : t.lane n = s.lane n := congrArg (·.get n) k
    exact e ▸ (Lane.SameForms.refl _).narrows

theorem State.LinesLaw.setLane {s : State} {n : Fin 4} {l : Lane} (h : s.LinesLaw)
    (k : (s.lane n).Narrows l) : (s.setLane n l).LinesLaw :=
  h.of_narrows fun m => by
    by_cases hm : m = n
    · subst hm
      rwa [State.lane_setLane_self]
    · rw [State.lane_setLane_ne s l hm]
      exact (Lane.SameForms.refl _).narrows

theorem State.LinesLaw.setLane_same {s : State} {n : Fin 4} {l : Lane} (h : s.LinesLaw)
    (k : (s.lane n).SameForms l) : (s.setLane n l).LinesLaw := h.setLane k.narrows

/-- R6: a lane may take new forms that are apart from every claim of the other lanes. -/
theorem State.LinesLaw.setLane_apart {s : State} {n : Fin 4} {l : Lane} (h : s.LinesLaw)
    (hoff : l.state = .off → l.pendForm = none)
    (hap : ∀ g ∈ l.claims, ∀ m, m ≠ n → ∀ f ∈ (s.lane m).claims, g.apart f) :
    (s.setLane n l).LinesLaw := by
  refine ⟨fun m => ?_, fun m m' hne f hf g hg => ?_⟩
  · by_cases hm : m = n
    · subst hm
      rwa [State.lane_setLane_self]
    · rw [State.lane_setLane_ne s l hm]
      exact h.1 m
  · by_cases hm : m = n
    · subst hm
      rw [State.lane_setLane_self] at hf
      rw [State.lane_setLane_ne s l hne.symm] at hg
      exact hap f hf m' hne.symm g hg
    · rw [State.lane_setLane_ne s l hm] at hf
      by_cases hm' : m' = n
      · subst hm'
        rw [State.lane_setLane_self] at hg
        have hapart := hap g hg m hm f hf
        unfold Form.apart at hapart ⊢
        omega
      · rw [State.lane_setLane_ne s l hm'] at hg
        exact h.2 m m' hne f hf g hg

/-- R6: a form that the overlap check passes is apart from every claim of the other lanes. -/
theorem State.apart_of_not_overlaps {s : State} {n m : Fin 4} {f g : Form}
    (h : ¬ s.overlaps n f = true) (hm : m ≠ n) (hg : g ∈ (s.lane m).claims) : f.apart g := by
  rw [State.overlaps_iff] at h
  by_contra hap
  exact h ⟨m, hm, g, hg, hap⟩

/-- R10: START checks the form it brings on air. -/
theorem State.LinesLaw.startLane {s : State} (h : s.LinesLaw) (n : Fin 4) :
    (s.startLane n).1.LinesLaw := by
  unfold State.startLane
  dsimp only
  split
  · exact h
  · split
    case h_1 ho =>
      split
      · exact h
      · split
        · exact h
        · rename_i hov
          refine h.setLane_apart (fun ha => LaneState.noConfusion ha) fun g hg m hm f hf => ?_
          simp only [Lane.claims, h.1 n ho, Option.toList_none, reduceCtorEq, if_false,
            List.mem_singleton] at hg
          exact hg ▸ State.apart_of_not_overlaps hov hm hf
    case h_4 hd => exact h.setLane_same ⟨rfl, rfl, by simp [hd]⟩
    case h_5 hd => exact h.setLane_same ⟨rfl, rfl, by simp [hd]⟩
    all_goals exact h

/-- R129: no lane action brings a shared frame line. -/
theorem State.LinesLaw.actOnLane {s : State} (h : s.LinesLaw) (a : LaneAction) (n : Fin 4) :
    (s.actOnLane a n).1.LinesLaw := by
  have off : (s.setLane n (s.lane n).enterOff).LinesLaw := h.setLane (.enterOff _)
  cases a with
  | start => exact h.startLane n
  | take =>
    simp only [State.actOnLane, State.takeLane]
    split
    · exact h
    · exact h.setLane_same ⟨rfl, rfl, .rfl⟩
  | stopDrain =>
    simp only [State.actOnLane, State.stopDrainLane]
    cases hl : (s.lane n).state with
    | armed => exact off
    | running | held => exact h.setLane_same ⟨rfl, rfl, by simp [hl]⟩
    | off | draining | fadingOut | killed => exact h
  | stopFade =>
    simp only [State.actOnLane, State.stopFadeLane]
    cases hl : (s.lane n).state with
    | armed => exact off
    | running | held | draining => exact h.setLane_same ⟨rfl, rfl, by simp [hl]⟩
    | off | fadingOut | killed => exact h
  | hold =>
    simp only [State.actOnLane, State.holdLane]
    cases hl : (s.lane n).state with
    | running | draining => exact h.setLane_same ⟨rfl, rfl, by simp [hl]⟩
    | off | armed | held | fadingOut | killed => exact h
  | resume =>
    simp only [State.actOnLane, State.resumeLane]
    cases hl : (s.lane n).state with
    | held =>
      refine h.setLane_same ⟨rfl, rfl, ?_⟩
      cases (s.lane n).resume <;> simp [Resume.state, hl]
    | off | armed | running | draining | fadingOut | killed => exact h

/-- R5, R6: LANE_FORM checks the form it offers. -/
theorem State.LinesLaw.laneForm {s : State} (h : s.LinesLaw) (c : Command) :
    (laneFormEffect c s).1.LinesLaw := by
  refine orBadArg_induct h fun n _ => orBadArg_induct h fun f _ => ?_
  dsimp only
  split
  · exact h
  · split
    · exact h
    · rename_i hov
      unfold Lane.offerForm
      split
      · rename_i ho
        exact h.setLane (.of_off ho rfl)
      · rename_i ho
        refine h.setLane_apart (fun ha => absurd ha ho) fun g hg m hm f' hf' => ?_
        simp only [Lane.claims, ho, if_false, Option.toList_some, List.mem_cons,
          List.not_mem_nil, or_false] at hg
        rcases hg with rfl | rfl
        · exact h.2 n m hm.symm _ (Lane.form_mem_claims ho) f' hf'
        · exact State.apart_of_not_overlaps hov hm hf'

/-- R54, R57: a transfer check leaves every form. -/
theorem State.LinesLaw.checkSlot {s : State} (h : s.LinesLaw) (k : Nat) : (s.checkSlot k).LinesLaw :=
  h.of_narrows fun n => by
    obtain ⟨ps, _, e⟩ := s.checkSlot_lane k n
    rw [e]
    exact Lane.SameForms.narrows ⟨rfl, rfl, .rfl⟩

theorem State.LinesLaw.laneStep {s : State} (h : s.LinesLaw) (n : Fin 4) (w : LaneWork) :
    (s.laneStep n w).1.LinesLaw :=
  h.of_narrows fun m => by
    by_cases hm : m = n
    · subst hm
      exact (s.laneStep_stepped m w).narrows
    · rw [(s.laneStep_frame n w).others m hm]
      exact (Lane.SameForms.refl _).narrows

theorem linesLaw_acts : KeptByActs State.LinesLaw where
  stage := fun h k => h.of_lanes k.lanes
  act := fun _ a n h => h.actOnLane a n

/-- R8: a field start's shares keep the law. -/
theorem State.LinesLaw.fieldShares {s : State} (h : s.LinesLaw) (order : List FieldTok) :
    (s.fieldShares order).LinesLaw := by
  obtain ⟨_, _, hf⟩ := State.fieldShares_induct (P := fun r => r.1.LinesLaw) order h
    fun r t _ hr => by
      cases t with
      | styles => exact hr.of_lanes (State.transferStyles_lanes r.1)
      | slot k => exact hr.checkSlot k
      | lane n => exact hr.laneStep n _
      | clock => exact (linesLaw_acts.firing fun s n k hs => hs.setLane (.setStyle _ k)).accumulate hr
  exact hf

theorem linesLaw_lanesKept : LanesKept State.LinesLaw where
  lanes := fun h k => h.of_lanes k
  initial := fun {t} k => by
    have e : ∀ n, t.lane n = Lane.initial := fun n => by
      simp only [State.lane, k, Four.get_all]
    exact ⟨fun n _ => by rw [e n]; rfl, fun m n _ f hf => by simp [e m, Lane.claims, Lane.initial] at hf⟩
  act := fun _ a n h => h.actOnLane a n
  style := fun _ _ k h => h.setLane (.setStyle _ k)
  form := fun _ c h => h.laneForm c
  motion := fun s n c h => by
    unfold Lane.offerMotion
    split <;> exact h.setLane_same ⟨rfl, rfl, .rfl⟩
  restore := fun s n b h => by
    unfold Lane.restore
    split
    · rename_i hk
      exact h.setLane_same ⟨rfl, rfl, by cases b <;> simp [hk]⟩
    · exact h.setLane_same (.refl _)
  enqueue := fun s c h => by
    refine orBadArg_induct h fun n _ => orBadArg_induct h fun b _ => orBadArg_induct h fun i _ => ?_
    split
    · exact h
    · split
      · exact h
      · split
        · exact h
        · unfold Lane.enqueue
          split <;> exact h.setLane_same ⟨rfl, rfl, .rfl⟩
  dequeue := fun s c h => by
    refine orBadArg_induct h fun n _ => orBadArg_induct h fun i _ => ?_
    split
    · unfold Lane.dequeue
      split <;> exact h.setLane_same ⟨rfl, rfl, .rfl⟩
    · exact h
  clear := fun s c h => by
    refine orBadArg_induct h fun n _ => ?_
    split
    · exact h.setLane_same ⟨rfl, rfl, .rfl⟩
    · exact h
  kill := fun s h => h.of_narrows fun n => by
    rw [State.lane_killLanes]
    exact .kill _
  field := fun _ order h => h.fieldShares order
  passLimit := fun {s t n} h hx => by
    obtain rfl := next_eq hx
    dsimp only
    split
    · refine linesLaw_acts.stage (State.LinesLaw.setLane_same (s := s.quiet) h ?_) (.raiseIf _ _ _)
      refine (Lane.SameForms.retireHead s.items (s.lane n)).trans ?_
      split <;> exact ⟨rfl, rfl, .rfl⟩
    · exact h
  pageEnd := fun {s t n} h hx => by
    obtain rfl := next_eq hx
    split
    · exact ((State.LinesLaw.laneStep (s := s.quiet) h n _).laneStep n _).laneStep n _
    · exact h
  holdExpiry := fun {s t n k} h hx => by
    obtain rfl := next_eq hx
    dsimp only
    split
    · exact State.LinesLaw.setLane_same (s := s.quiet) h ⟨rfl, rfl, .rfl⟩
    · exact h
  fadeOutEnd := fun {s t n} h hx => by
    obtain rfl := next_eq hx
    split
    · exact (State.LinesLaw.setLane (s := s.quiet) h (.enterOff _)).of_lanes rfl
    · exact h

/-- Settles O54: every change of a lane either stays on the frame lines the lane claimed or has passed
the overlap check of START or LANE_FORM. -/
theorem linesLawKept : Obligations.LinesLawKept :=
  fun _ _ h hx => linesLaw_lanesKept.step h hx

end Sys2Proof.Machine

/-! ## The law of the lanes' ranges (R1, R4, R16, R17, R21, R22, R30, R41, R91, R175) -/

namespace Sys2Proof.Machine

/-! ### The ranges by name -/

/-- `Lane.Lawful` with its clauses named, the bound of the offset left open: between the advance and the
rebase of a field start the offset may stand beyond 2^20 pixels (R29, R30). -/
structure Lane.Within (top : Nat) (l : Lane) : Prop where
  fade       : l.fade ≤ 256
  ring       : l.ring.length ≤ 96
  placed     : l.placed.length ≤ 48
  placedRing : l.placed.length ≤ l.ring.length
  offset     : l.offset < top
  passCount  : l.passCount ≤ 255
  dwellCount : l.dwellCount ≤ 65535
  speed      : l.motion.speed ≤ 8191
  pendSpeed  : ∀ m ∈ l.pendMotion, m.speed ≤ 8191
  cueColumn  : l.motion.cueColumn ≤ l.laneWidth - 1
  pendKind   : ∀ f ∈ l.pendForm, f.kind = l.form.kind
  flip       : l.form.kind = .flip → l.placed.length ≤ 1 ∧ l.offset = 0
  crawl      : l.form.kind = .crawl → l.dwellCount = 0
  off        : l.state = .off →
    l.AtRest ∧ l.pendForm = none ∧ l.pendMotion = none ∧ l.takeMark = false
  armed      : l.state = .armed → l.AtRest
  level      : ∀ p ∈ l.placed, p.env.level ≤ 65280
  spacing    : spaced l.placed = true

theorem Lane.lawful_iff (l : Lane) : l.Lawful ↔ l.Within 268435456 :=
  ⟨fun ⟨h1, h2, h3, h4, h5, h6, h7, h8, h9, h10, h11, h12, h13, h14, h15, h16, h17⟩ =>
    ⟨h1, h2, h3, h4, h5, h6, h7, h8, h9, h10, h11, h12, h13, h14, h15, h16, h17⟩,
  fun h => ⟨h.fade, h.ring, h.placed, h.placedRing, h.offset, h.passCount, h.dwellCount, h.speed,
    h.pendSpeed, h.cueColumn, h.pendKind, h.flip, h.crawl, h.off, h.armed, h.level, h.spacing⟩⟩

/-- A lane outside OFF and ARMED, of which no rest is asked. -/
structure Lane.Live (l : Lane) : Prop where
  off   : l.state ≠ .off
  armed : l.state ≠ .armed

theorem Lane.live_of_works {l : Lane} (h : l.state.works = true) : l.Live :=
  ⟨fun e => by simp [e, LaneState.works] at h, fun e => by simp [e, LaneState.works] at h⟩

theorem Lane.live_of_places {l : Lane} (h : l.places = true) : l.Live :=
  ⟨fun e => by simp [Lane.places, e] at h, fun e => by simp [Lane.places, e] at h⟩

/-! ### Spacing (R22) -/

/-- R22: the strip start and the width of an entry. -/
def Placement.span (p : Placement) : Int × Nat := (p.start, p.width)

/-- R22: the spacing of a run is that of each neighbour to the next. -/
theorem spaced_iff_isChain : ∀ ps : List Placement,
    spaced ps = true ↔ ps.IsChain fun p q => p.start + (p.width : Int) ≤ q.start
  | [] => by simp [spaced]
  | [_] => by simp [spaced]
  | p :: q :: t => by
    have ih := spaced_iff_isChain (q :: t)
    simp only [spaced, List.tail_cons] at ih
    simp only [spaced, List.tail_cons, List.zip_cons_cons, List.all_cons, Bool.and_eq_true,
      decide_eq_true_eq, ih, List.isChain_cons_cons]

/-- R22: the spacing of a run depends on the spans of its entries alone, and on these up to a common
shift. -/
theorem spaced_of_spans {ps qs : List Placement} (c : Int)
    (h : qs.map Placement.span = ps.map fun p => (p.start + c, p.width)) (hps : spaced ps = true) :
    spaced qs = true := by
  rw [spaced_iff_isChain] at hps ⊢
  have hq : (qs.map Placement.span).IsChain fun a b => a.1 + (a.2 : Int) ≤ b.1 := by
    rw [h, List.isChain_map]
    exact hps.imp fun p q hpq => by dsimp only; omega
  exact (List.isChain_map _).mp hq

/-- R35: an entry that starts at or beyond the end of the last keeps the spacing. -/
theorem spaced_concat {ps : List Placement} {q : Placement} (h : spaced ps = true)
    (hq : ∀ p ∈ ps.getLast?, p.start + (p.width : Int) ≤ q.start) : spaced (ps ++ [q]) = true := by
  rw [spaced_iff_isChain] at h ⊢
  exact List.isChain_append.mpr ⟨h, .singleton q, fun p hp b hb => by
    obtain rfl := by simpa using hb
    exact hq p hp⟩

/-! ### Envelope levels (R83, R86) -/

/-- R87: the hold countdown leaves the level. -/
theorem Envelope.holdStep_level (e : Envelope) : e.holdStep.level = e.level := by
  unfold Envelope.holdStep
  split
  · split <;> rfl
  · rfl

/-- R86, R87: no step of an envelope brings its level beyond the peak. -/
theorem Envelope.step_level {e : Envelope} (k : Style) (h : e.level ≤ 65280) :
    (e.step k).level ≤ 65280 := by
  have hphase : (e.phaseStep k).level ≤ 65280 := by
    unfold Envelope.phaseStep
    split
    · exact h
    · exact Nat.min_le_left _ _
    · dsimp only
      split <;> omega
    · exact h
    · exact (Nat.sub_le _ _).trans h
  rw [Envelope.step, Envelope.holdStep_level]
  exact hphase

/-! ### What keeps the ranges -/

section
variable {top : Nat} {l : Lane}

theorem Lane.Within.mono {top' : Nat} (h : l.Within top) (k : top ≤ top') : l.Within top' :=
  { h with offset := h.offset.trans_le k }

/-- A new state outside OFF and ARMED, with any resume target and motion flag. -/
theorem Lane.Within.setState (h : l.Within top) {st : LaneState} {r : Resume} {m : Bool} (ho : st ≠ .off)
    (ha : st ≠ .armed) : Lane.Within top { l with state := st, resume := r, motionOn := m } :=
  { h with off := fun e => absurd e ho, armed := fun e => absurd e ha }

/-- A run with the spans of the old one, its levels in range. -/
theorem Lane.Within.setRun (h : l.Within top) {ps : List Placement} (c : Int)
    (hspan : ps.map Placement.span = l.placed.map fun p => (p.start + c, p.width))
    (hlevel : ∀ p ∈ ps, p.env.level ≤ 65280) : Lane.Within top { l with placed := ps } := by
  have hlen : ps.length = l.placed.length := by simpa using congrArg List.length hspan
  have hrest : l.AtRest → ({ l with placed := ps } : Lane).AtRest := fun ⟨hp, hr⟩ =>
    ⟨List.length_eq_zero_iff.mp (by simpa [hp] using hlen), hr⟩
  exact { h with
    placed := hlen ▸ h.placed
    placedRing := hlen ▸ h.placedRing
    flip := fun hk => hlen ▸ h.flip hk
    off := fun ho => (h.off ho).imp_left hrest
    armed := fun ha => hrest (h.armed ha)
    level := hlevel
    spacing := spaced_of_spans c hspan h.spacing }

/-- A new fade level of a live lane. -/
theorem Lane.Within.setFade (h : l.Within top) (hl : l.Live) {g : Nat} (hg : g ≤ 256) :
    Lane.Within top { l with fade := g } :=
  { h with fade := hg, off := fun e => absurd e hl.off, armed := fun e => absurd e hl.armed }

/-- R9: the take brings in parameters that keep the kind, and clamps the cue column. -/
theorem Lane.Within.takeApply (h : l.Within top) : l.takeApply.Within top := by
  cases hm : l.takeMark
  case false => rwa [Lane.takeApply_of_not hm]
  have hkind : (l.pendForm.getD l.form).kind = l.form.kind := by
    cases hf : l.pendForm with
    | none => rfl
    | some f => exact h.pendKind f hf
  rw [Lane.takeApply_eq hm]
  exact { h with
    speed := by
      cases hp : l.pendMotion with
      | none => exact h.speed
      | some m => exact h.pendSpeed m hp
    pendSpeed := fun m hp => nomatch hp
    cueColumn := by
      have hcue := h.cueColumn
      simp only [Lane.laneWidth, Form.laneWidth] at hcue ⊢
      split
      · omega
      · rename_i hn
        cases hf : l.pendForm <;> cases hp : l.pendMotion <;> simp [hf, hp] at hn ⊢ <;> omega
    pendKind := fun f hp => nomatch hp
    flip := fun hk => h.flip (hkind.symm.trans hk)
    crawl := fun hk => h.crawl (hkind.symm.trans hk)
    off := fun ho => by simp [(h.off ho).2.2.2] at hm }

theorem Lane.Within.enterOff (h : l.Within top) : l.enterOff.Within top := by
  have hrest : l.enterOff.AtRest := ⟨rfl, rfl, rfl, rfl, rfl⟩
  exact { h with
    fade := Nat.zero_le _, placed := Nat.zero_le _, placedRing := Nat.zero_le _
    offset := Nat.zero_lt_of_lt h.offset, passCount := Nat.zero_le _, dwellCount := Nat.zero_le _
    pendSpeed := fun m hp => nomatch hp
    pendKind := fun f hp => nomatch hp
    flip := fun _ => ⟨Nat.zero_le _, rfl⟩, crawl := fun _ => rfl
    off := fun _ => ⟨hrest, rfl, rfl, rfl⟩, armed := fun _ => hrest
    level := fun p hp => nomatch hp
    spacing := rfl }

theorem Lane.Within.kill (h : l.Within top) : l.kill.Within top := by
  unfold Lane.kill
  split
  case h_1 | h_2 => exact h
  case h_3 => exact h.enterOff
  all_goals exact h.setState (by simp) (by simp)

/-- R14: a lane begins with its fade level at 0 or 256. -/
theorem Lane.Within.begin (h : l.Within top) : l.begin.Within top := by
  unfold Lane.begin
  split
  · refine Lane.Within.setFade (h.setState (st := .running) (by simp) (by simp)) ⟨by simp, by simp⟩ ?_
    split <;> omega
  · exact h

theorem Lane.Within.drainCheck (h : l.Within top) : l.drainCheck.Within top := by
  unfold Lane.drainCheck
  split
  · exact h.setState (by simp) (by simp)
  · exact h

theorem fadeUp_le (f g : Nat) : fadeUp f g ≤ 256 := by
  rw [fadeUp_eq]
  split <;> omega

theorem fadeDown_le (f g : Nat) : fadeDown f g ≤ g := by
  unfold fadeDown
  split
  · exact Nat.zero_le _
  · exact Nat.sub_le _ _

/-- R16: the fade step stays within 0 and 256. -/
theorem Lane.Within.fadeStep (h : l.Within top) : l.fadeStep.Within top := by
  unfold Lane.fadeStep
  split
  case h_1 hl | h_2 hl | h_3 hl => exact h.setFade ⟨by simp [hl], by simp [hl]⟩ (fadeUp_le _ _)
  case h_4 hl =>
    exact h.setFade ⟨by simp [hl], by simp [hl]⟩ ((fadeDown_le _ _).trans h.fade)
  all_goals exact h

/-- R31, R32: a pass is counted, the lane drained at the limit. -/
theorem Lane.Within.countPass (h : l.Within top) (hl : l.Live) :
    l.countPass.Within top ∧ l.countPass.Live := by
  have hlimit : l.passLimit.Within top ∧ l.passLimit.Live := by
    unfold Lane.passLimit
    split
    case h_1 => exact ⟨h.setState (by simp) (by simp), by simp, by simp⟩
    case h_2 => exact ⟨h.setState hl.off hl.armed, hl.off, hl.armed⟩
    all_goals exact ⟨h, hl⟩
  have hcount : ∀ {l : Lane} {c : Nat}, l.Within top → l.Live → c ≤ 255 →
      ({ l with passCount := c } : Lane).Within top ∧ ({ l with passCount := c } : Lane).Live :=
    fun h hl hc => ⟨{ h with
      passCount := hc, off := fun e => absurd e hl.off, armed := fun e => absurd e hl.armed },
      hl.off, hl.armed⟩
  unfold Lane.countPass
  dsimp only
  split
  · exact hcount hlimit.1 hlimit.2 (Nat.zero_le _)
  · exact hcount h hl (Nat.min_le_left _ _)

/-- R31: a retirement takes the head of the run with the head of the ring, or with its move to the
tail. -/
theorem Lane.Within.retireHead (h : l.Within top) (hl : l.Live) (items : Store Item) :
    (l.retireHead items).1.Within top ∧ (l.retireHead items).1.Live := by
  unfold Lane.retireHead
  split
  · rename_i e ring p placed hring hplaced
    dsimp only
    generalize ((Store.get Item.undefined items e).repeats && !p.noRepeat) = back
    have hr := h.ring
    have hp := h.placed
    have hpr := h.placedRing
    have hchain := (spaced_iff_isChain _).mp h.spacing
    rw [hring] at hr hpr
    rw [hplaced] at hp hpr hchain
    simp only [List.length_cons] at hr hp hpr
    have hlen : (if back then ring ++ [e] else ring).length ≤ ring.length + 1 ∧
        ring.length ≤ (if back then ring ++ [e] else ring).length := by
      split <;> simp
    have hret : ({ l with ring := if back then ring ++ [e] else ring, placed := placed } : Lane).Within
        top := { h with
      ring := hlen.1.trans hr
      placed := by dsimp only; omega
      placedRing := by dsimp only; omega
      flip := fun hk => ⟨by have := (h.flip hk).1; rw [hplaced] at this; simp at this; simp [this],
        (h.flip hk).2⟩
      off := fun e => absurd e hl.off
      armed := fun e => absurd e hl.armed
      level := fun q hq => h.level q (hplaced ▸ List.mem_cons_of_mem _ hq)
      spacing := (spaced_iff_isChain _).mpr hchain.tail }
    split
    · exact hret.countPass ⟨hl.off, hl.armed⟩
    · exact ⟨hret, hl.off, hl.armed⟩
  · exact ⟨h, hl⟩

/-- R43: a page that has retired leaves its dwell counter at 0. -/
theorem Lane.Within.setDwell (h : l.Within top) (hl : l.Live) :
    Lane.Within top { l with dwellCount := 0 } :=
  { h with
    dwellCount := Nat.zero_le _, crawl := fun _ => rfl
    off := fun e => absurd e hl.off, armed := fun e => absurd e hl.armed }

/-- R31, R43: the retire step. -/
theorem Lane.Within.retireStep (h : l.Within top) (items : Store Item) (w : LaneWork) :
    (l.retireStep items w).1.Within top := by
  by_cases hw : l.state.works = true
  case neg => simpa [Lane.retireStep, hw] using h
  have hl := Lane.live_of_works hw
  refine (Lane.retireStep_induct (Q := fun l => l.Within top ∧ l.Live) w ⟨h, hl⟩
    (fun _ _ l' h' => h'.1.retireHead h'.2 items) fun _ _ => ?_).1
  obtain ⟨h', hl'⟩ := h.retireHead hl items
  exact ⟨h'.setDwell hl', hl'.off, hl'.armed⟩

/-- R34: the note of the edges. -/
theorem Lane.Within.noteEdges (h : l.Within top) : l.noteEdges.Within top := by
  refine h.setRun 0 ?_ fun p hp => ?_
  · simp [Function.comp_def, Placement.span]
  · obtain ⟨q, hq, rfl⟩ := List.mem_map.mp hp
    exact h.level q hq

/-- R38: the envelope step. -/
theorem Lane.Within.stepEnvelopes (h : l.Within top) (k : Placement → Style) :
    Lane.Within top { l with placed := l.placed.map fun p => { p with env := p.env.step (k p) } } := by
  refine h.setRun 0 ?_ fun p hp => ?_
  · simp [Function.comp_def, Placement.span]
  · obtain ⟨q, hq, rfl⟩ := List.mem_map.mp hp
    exact Envelope.step_level _ (h.level q hq)

/-- R57: a transfer's strikes. -/
theorem Lane.Within.struck (h : l.Within top) {ps : List Placement}
    (hs : List.Forall₂ Placement.Struck l.placed ps) : Lane.Within top { l with placed := ps } := by
  refine h.setRun 0 ?_ ?_
  · rw [Placement.map_of_struck (f := Placement.span)
      (fun p p' hp => by simp [Placement.span, hp.start, hp.width]) hs]
    simp [Placement.span]
  · intro q hq
    have hmap := Placement.map_of_struck (f := fun p => p.env.level) (fun _ _ hp => hp.level) hs
    obtain ⟨p, hp, e⟩ := List.mem_map.mp (hmap ▸ List.mem_map_of_mem hq)
    exact e ▸ h.level p hp

/-- R36: a skipped entry leaves the unplaced part of the ring, or goes to its tail. -/
theorem Lane.Within.skipEntry (h : l.Within top) (hl : l.Live) (e : Nat) (it : Item)
    (hlt : l.placedCount < l.ring.length) :
    (l.skipEntry e it).1.Within top ∧ (l.skipEntry e it).1.Live := by
  have hr := h.ring
  have hlen : (l.ring.eraseIdx l.placedCount).length = l.ring.length - 1 :=
    List.length_eraseIdx_of_lt hlt
  have hset : ∀ ring : List Nat, l.ring.length - 1 ≤ ring.length → ring.length ≤ l.ring.length →
      ({ l with ring := ring } : Lane).Within top ∧ ({ l with ring := ring } : Lane).Live :=
    fun ring hlo hhi => ⟨{ h with
      ring := hhi.trans hr
      placedRing := by unfold Lane.placedCount at hlt; dsimp only; omega
      off := fun e => absurd e hl.off, armed := fun e => absurd e hl.armed }, hl.off, hl.armed⟩
  unfold Lane.skipEntry
  dsimp only
  split
  · exact hset _ (by simp [hlen]) (by simp [hlen]; omega)
  · exact hset _ (by omega) (by omega)

/-- R35, R37, R43: an entry is placed behind the last of the run, on a FLIP lane as the only one. -/
theorem Lane.Within.place (h : l.Within top) (hl : l.Live) {s : State} {it : Item} {start : Int}
    (hmax : l.placedCount < 48) (hlt : l.placedCount < l.ring.length)
    (hkind : l.form.kind = .flip → l.placed = [])
    (hstart : ∀ p ∈ l.placed.getLast?, p.start + (p.width : Int) ≤ start) :
    (s.placeAt l it start).Within top ∧ (s.placeAt l it start).Live := by
  unfold Lane.placedCount at hmax hlt
  refine ⟨?_, hl.off, hl.armed⟩
  exact { h with
    placed := by simp only [State.placeAt, List.length_append, List.length_singleton]; omega
    placedRing := by simp only [State.placeAt, List.length_append, List.length_singleton]; omega
    flip := fun hk => ⟨by simp [State.placeAt, hkind hk], (h.flip hk).2⟩
    off := fun e => absurd e hl.off
    armed := fun e => absurd e hl.armed
    level := fun p hp => by
      rcases List.mem_append.mp hp with hp | hp
      · exact h.level p hp
      · obtain rfl := List.mem_singleton.mp hp
        exact Nat.zero_le _
    spacing := spaced_concat h.spacing hstart }

/-- R35: a candidate lies at or beyond the end of the last entry. -/
theorem Lane.candidate_ge {floor start : Int} (hc : l.candidate floor = some start) :
    ∀ p ∈ l.placed.getLast?, p.start + (p.width : Int) ≤ start := by
  intro p hp
  unfold Lane.candidate at hc
  rw [Option.mem_def.mp hp] at hc
  simp only [Option.ite_none_right_eq_some, Option.some.injEq] at hc
  omega

/-- R35: the place step of a CRAWL lane. -/
theorem Lane.Within.placeLoop (h : l.Within top) (hl : l.Live) (hk : l.form.kind = .crawl)
    (s : State) (floor : Int) (u : Nat) : (s.placeLoop floor u l).1.Within top := by
  refine (State.placeLoop_induct (Q := fun l => (l.Within top ∧ l.Live) ∧ l.form.kind = .crawl)
    (fun l e it hlt h => ⟨h.1.1.skipEntry h.1.2 e it hlt, ?_⟩)
    (fun l it start hmax hlt hc h => ⟨h.1.1.place h.1.2 hmax hlt (fun hf => ?_) (Lane.candidate_ge hc),
      h.2⟩) u l ⟨⟨h, hl⟩, hk⟩).1.1
  · rw [(Lane.SameForms.skipEntry l e it).form]
    exact h.2
  · rw [h.2] at hf
    cases hf

/-- R43: the place step of a FLIP lane. -/
theorem Lane.Within.placePage (h : l.Within top) (hl : l.Live) (hp : l.placed = []) (s : State)
    (u : Nat) : (s.placePage u l).1.Within top := by
  refine State.placePage_induct (Q := fun l => (l.Within top ∧ l.Live) ∧ l.placed = [])
    (R := fun l => l.Within top)
    (fun l e it hlt h => ⟨h.1.1.skipEntry h.1.2 e it hlt, ?_⟩) (fun _ h => h.1.1)
    (fun l it hlt h => ?_) u l ⟨⟨h, hl⟩, hp⟩
  · unfold Lane.skipEntry
    dsimp only
    split <;> exact h.2
  · obtain ⟨hw, hl'⟩ := h.1.1.place (s := s) (it := it) (start := 0) h.1.2
      (by simp [Lane.placedCount, h.2]) hlt (fun _ => h.2) (fun p hp => by simp [h.2] at hp)
    exact hw.setDwell hl'

end

/-! ### The ranges through a lane's field start work -/

/-- The ranges of a lane whose next step is number `k`: after the advance and before the rebase the offset
of a CRAWL lane may stand beyond 2^20 pixels, by one advance. -/
structure Lane.WithinAt (k : Nat) (l : Lane) : Prop where
  within : l.Within (if k = 3 then 268435456 + 8191 else 268435456)
  beyond : 268435456 ≤ l.offset → l.state.works = true ∧ l.form.kind = .crawl

theorem Lane.Within.at {l : Lane} (h : l.Within 268435456) (k : Nat) : l.WithinAt k where
  within := h.mono (by split <;> omega)
  beyond := fun ho => absurd h.offset (Nat.not_lt.mpr ho)

theorem Lane.WithinAt.of_ne {l : Lane} {k : Nat} (h : l.WithinAt k) (hk : k ≠ 3) :
    l.Within 268435456 := by
  have hw := h.within
  rwa [if_neg hk] at hw

/-- R29, R42: the advance. -/
theorem Lane.Within.advance {l : Lane} (h : l.Within 268435456) (w : LaneWork) :
    (l.advance w).1.WithinAt 3 := by
  have hspeed := h.speed
  have hoff := h.offset
  cases hw : l.state.works with
  | false =>
    rw [Lane.advance_of_not_works w hw]
    exact h.at 3
  | true =>
    have hl := Lane.live_of_works hw
    cases hk : l.form.kind with
    | crawl =>
      rw [Lane.advance_crawl w hw hk]
      refine ⟨?_, fun _ => ⟨hw, hk⟩⟩
      exact { h with
        offset := by dsimp only; split <;> simp only [if_true] <;> omega
        flip := fun hf => by rw [hk] at hf; cases hf
        off := fun e => absurd e hl.off, armed := fun e => absurd e hl.armed }
    | flip =>
      rw [Lane.advance_flip w hk]
      split
      · refine Lane.Within.at ?_ 3
        exact { h with
          dwellCount := Nat.min_le_left _ _
          crawl := fun hc => by rw [hk] at hc; cases hc
          off := fun e => absurd e hl.off, armed := fun e => absurd e hl.armed }
      · exact h.at 3

/-- R30: the rebase brings the offset back below 2^20 pixels. -/
theorem Lane.WithinAt.rebaseStep {l : Lane} (h : l.WithinAt 3) (w : LaneWork) :
    (l.rebaseStep w).1.Within 268435456 := by
  have hw := h.within
  rw [if_pos rfl] at hw
  have htop := hw.offset
  rw [Lane.rebaseStep_eq]
  split
  · rename_i hc
    have hl := Lane.live_of_works hc.1
    obtain ⟨o, ho, e⟩ := l.rebase_shift
    rw [e]
    have hrun := hw.setRun (ps := l.placed.map fun p => { p with start := p.start - 1048576 })
      (-1048576) (by simp [Function.comp_def, Placement.span, Int.sub_eq_add_neg]) fun p hp => by
        obtain ⟨q, hq, rfl⟩ := List.mem_map.mp hp
        exact hw.level q hq
    exact { hrun with
      offset := by dsimp only; omega
      flip := fun hf => by dsimp only at hf; rw [hc.2.1] at hf; cases hf
      off := fun e => absurd e hl.off, armed := fun e => absurd e hl.armed }
  · rename_i hc
    refine { hw with offset := Nat.lt_of_not_le fun ho => hc ⟨?_, ?_, ho⟩ }
    · exact (h.beyond ho).1
    · exact (h.beyond ho).2

/-- R8: every step of a lane's field start work keeps the ranges. -/
theorem Lane.Stepped.within {s : State} {l l' : Lane} {w : LaneWork} (hs : Lane.Stepped s l w l')
    (h : l.WithinAt w.step) : l'.WithinAt (w.step + 1) := by
  cases hs with
  | take hk => exact (h.of_ne (by omega)).takeApply.at _
  | begin hk => exact (h.of_ne (by omega)).begin.at _
  | advance hk => rw [hk]; exact (h.of_ne (by omega)).advance _
  | rebase hk => rw [hk] at h; exact (h.rebaseStep _).at _
  | retire hk => exact ((h.of_ne (by omega)).retireStep _ _).at _
  | cross hk => exact (h.of_ne (by omega)).noteEdges.at _
  | placeStrip floor u hk hp hc =>
    exact ((h.of_ne (by omega)).placeLoop (Lane.live_of_places hp) hc s floor u).at _
  | placePage u hk hp hf he =>
    exact ((h.of_ne (by omega)).placePage (Lane.live_of_places hp) he s u).at _
  | envelope hk => exact ((h.of_ne (by omega)).stepEnvelopes _).at _
  | drain hk => exact (h.of_ne (by omega)).drainCheck.at _
  | fade hk => exact (h.of_ne (by omega)).fadeStep.at _
  | off hk => exact (h.of_ne (by omega)).enterOff.at _
  | keep hk => exact (h.of_ne (by omega)).at _

end Sys2Proof.Machine

/-! ## Every step keeps the lanes' ranges -/

namespace Sys2Proof.Machine

/-! ### Commands on one lane -/

section
variable {top : Nat} {l : Lane}

/-- R129: SET_STYLE keeps the kind of every form. -/
theorem Lane.Within.setStyle (h : l.Within top) (k : Nat) : (l.setStyle k).Within top := by
  unfold Lane.setStyle
  split
  · exact { h with }
  · rename_i ho
    exact { h with
      pendKind := fun g hg => by
        obtain rfl := Option.some.inj hg
        cases hf : l.pendForm with
        | none => rfl
        | some f => exact h.pendKind f hf
      off := fun e => absurd e ho }

/-- R4, R5: LANE_MOTION clamps the speed and, where it takes effect, the cue column. -/
theorem Lane.Within.offerMotion (h : l.Within top) (c : Command) :
    (l.offerMotion c.motion).Within top := by
  have hspeed : c.motion.speed ≤ 8191 := Nat.min_le_left _ _
  unfold Lane.offerMotion
  split
  · exact { h with
      speed := hspeed
      pendSpeed := fun m hm => nomatch hm
      cueColumn := Nat.min_le_right _ _
      off := fun e => ⟨(h.off e).1, (h.off e).2.1, rfl, (h.off e).2.2.2⟩ }
  · rename_i ho
    exact { h with
      pendSpeed := fun m hm => by
        obtain rfl := Option.some.inj hm
        exact hspeed
      off := fun e => absurd e ho }

/-- R3, R5: LANE_FORM changes the kind in OFF alone. -/
theorem Lane.Within.offerForm (h : l.Within top) {f : Form}
    (hk : ¬ (l.state ≠ .off ∧ f.kind ≠ l.form.kind)) : (l.offerForm f).Within top := by
  unfold Lane.offerForm
  split
  · rename_i ho
    obtain ⟨⟨hp, hof, hrest⟩, _, hpm, htm⟩ := h.off ho
    exact { h with
      cueColumn := Nat.min_le_right _ _
      pendKind := fun g hg => nomatch hg
      flip := fun _ => ⟨by simp [Lane.setForm, hp], hof⟩
      crawl := fun _ => hrest.2.2
      off := fun e => ⟨(h.off e).1, rfl, hpm, htm⟩ }
  · rename_i ho
    exact { h with
      pendKind := fun g hg => by
        obtain rfl := Option.some.inj hg
        by_contra hne
        exact hk ⟨ho, hne⟩
      off := fun e => absurd e ho }

/-- R139: RESTORE. -/
theorem Lane.Within.restore (h : l.Within top) (b : Bool) : (l.restore b).Within top := by
  unfold Lane.restore
  split
  · cases b with
    | false =>
      exact Lane.Within.setFade (h.setState (st := .held) (by simp) (by simp)) ⟨by simp, by simp⟩
        (Nat.zero_le _)
    | true =>
      exact Lane.Within.setFade (h.setState (st := .running) (by simp) (by simp)) ⟨by simp, by simp⟩
        (Nat.zero_le _)
  · exact h

/-- R23, R24, R26: a ring that keeps room for the placed run. -/
theorem Lane.Within.setRing (h : l.Within top) {ring : List Nat} (hlo : l.placed.length ≤ ring.length)
    (hhi : ring.length ≤ 96) : Lane.Within top { l with ring := ring } :=
  { h with ring := hhi, placedRing := hlo }

/-- R23: ENQUEUE. -/
theorem Lane.Within.enqueue (h : l.Within top) (hfull : l.ring.length < 96) (i : Nat) (next : Bool) :
    (l.enqueue i next).Within top := by
  have hpr := h.placedRing
  unfold Lane.enqueue
  split
  · refine h.setRing ?_ ?_ <;>
      simp only [List.length_append, List.length_take, List.length_cons, List.length_drop,
        Lane.placedCount] <;> omega
  · refine h.setRing ?_ ?_ <;> simp only [List.length_append, List.length_singleton] <;> omega

/-- What a change of one entry keeps of each, it keeps of the run. -/
theorem map_modify_of_eq {α : Type} {f : Placement → α} {g : Placement → Placement}
    (h : ∀ p, f (g p) = f p) (ps : List Placement) (i : Nat) : (ps.modify i g).map f = ps.map f := by
  refine List.ext_getElem? fun j => ?_
  simp only [List.getElem?_map, List.getElem?_modify]
  cases ps[j]? with
  | none => rfl
  | some p =>
    simp only [Option.map_some]
    split
    · exact congrArg some (h p)
    · rfl

/-- A change of one entry that keeps its span and its level. -/
theorem Lane.Within.modify (h : l.Within top) (i : Nat) {g : Placement → Placement}
    (hspan : ∀ p, (g p).span = p.span) (hlevel : ∀ p, (g p).env.level = p.env.level) :
    Lane.Within top { l with placed := l.placed.modify i g } := by
  refine h.setRun 0 ?_ fun q hq => ?_
  · rw [map_modify_of_eq hspan]
    simp [Placement.span]
  · have hmap := map_modify_of_eq (f := fun p => p.env.level) hlevel l.placed i
    obtain ⟨p, hp, e⟩ := List.mem_map.mp (hmap ▸ List.mem_map_of_mem hq)
    exact e ▸ h.level p hp

/-- R24: DEQUEUE takes an unplaced entry from the ring, and marks a placed one. -/
theorem Lane.Within.dequeue (h : l.Within top) {pos : Nat} (hpos : pos < l.ring.length) :
    (l.dequeue pos).Within top := by
  have hr := h.ring
  unfold Lane.dequeue
  split
  · exact h.modify pos (fun _ => rfl) fun _ => rfl
  · rename_i hp
    unfold Lane.placedCount at hp
    refine h.setRing ?_ ?_ <;> rw [List.length_eraseIdx_of_lt hpos] <;> omega

end

/-! ### The law under changes of the lanes -/

theorem State.laneLaw_iff (s : State) : s.LaneLaw ↔ ∀ n, (s.lane n).Within 268435456 :=
  forall_congr' fun n => (s.lane n).lawful_iff

theorem State.LaneLaw.within {s : State} (h : s.LaneLaw) (n : Fin 4) : (s.lane n).Within 268435456 :=
  s.laneLaw_iff.mp h n

theorem State.LaneLaw.of_lanes {s t : State} (h : s.LaneLaw) (k : t.lanes = s.lanes) : t.LaneLaw :=
  fun n => by
    have e : t.lane n = s.lane n := congrArg (·.get n) k
    exact e ▸ h n

theorem State.LaneLaw.setLane {s : State} (h : s.LaneLaw) {n : Fin 4} {l : Lane}
    (k : l.Within 268435456) : (s.setLane n l).LaneLaw :=
  (State.laneLaw_iff _).mpr fun m => by
    by_cases hm : m = n
    · subst hm
      rwa [State.lane_setLane_self]
    · rw [State.lane_setLane_ne s l hm]
      exact h.within m

/-- R10, R11, R12, R7: the lane actions. -/
theorem State.LaneLaw.actOnLane {s : State} (h : s.LaneLaw) (a : LaneAction) (n : Fin 4) :
    (s.actOnLane a n).1.LaneLaw := by
  have hw := h.within n
  have off : (s.setLane n (s.lane n).enterOff).LaneLaw := h.setLane hw.enterOff
  have move : ∀ {st : LaneState} {r : Resume} {m : Bool}, st ≠ .off → st ≠ .armed →
      (s.setLane n { s.lane n with state := st, resume := r, motionOn := m }).LaneLaw :=
    fun ho ha => h.setLane (hw.setState ho ha)
  cases a with
  | start =>
    simp only [State.actOnLane, State.startLane]
    split
    · exact h
    · split
      case h_1 ho =>
        split
        · exact h
        · split
          · exact h
          · refine h.setLane ?_
            exact { hw with
              off := fun e => LaneState.noConfusion e
              armed := fun _ => (hw.off ho).1 }
      case h_4 | h_5 => exact move (by simp) (by simp)
      all_goals exact h
  | stopDrain =>
    simp only [State.actOnLane, State.stopDrainLane]
    split
    case h_2 => exact off
    case h_3 => exact move (by simp) (by simp)
    case h_5 hl => exact move (by simp [hl]) (by simp [hl])
    all_goals exact h
  | stopFade =>
    simp only [State.actOnLane, State.stopFadeLane]
    split
    case h_2 => exact off
    case h_3 | h_4 | h_5 => exact move (by simp) (by simp)
    all_goals exact h
  | hold =>
    simp only [State.actOnLane, State.holdLane]
    split
    case h_1 | h_2 => exact move (by simp) (by simp)
    all_goals exact h
  | resume =>
    simp only [State.actOnLane, State.resumeLane]
    split
    case h_1 => cases hr : (s.lane n).resume <;> exact move (by simp [Resume.state]) (by simp [Resume.state])
    all_goals exact h
  | take =>
    simp only [State.actOnLane, State.takeLane]
    split
    · exact h
    · rename_i ho
      exact h.setLane { hw with off := fun e => absurd e ho }

theorem laneLaw_acts : KeptByActs State.LaneLaw where
  stage := fun h k => h.of_lanes k.lanes
  act := fun _ a n h => h.actOnLane a n

theorem laneLaw_firing : KeptByFiring State.LaneLaw :=
  laneLaw_acts.firing fun _ _ k h => h.setLane ((h.within _).setStyle k)

/-! ### A field start -/

/-- The ranges amid a field start, each lane at the step it has come to. -/
def FieldWork.Ranged (r : State × FieldWork) : Prop :=
  ∀ n, (r.1.lane n).WithinAt (r.2.lanes.get n).step

theorem FieldWork.Ranged.law {r : State × FieldWork} (h : FieldWork.Ranged r)
    (hk : ∀ n, (r.2.lanes.get n).step ≠ 3) : r.1.LaneLaw :=
  r.1.laneLaw_iff.mpr fun n => (h n).of_ne (hk n)

theorem State.LaneLaw.ranged {s : State} (h : s.LaneLaw) (w : FieldWork) : FieldWork.Ranged (s, w) :=
  fun n => (h.within n).at _

/-- R8, R59, R88, R122, R130: every share keeps the ranges. -/
theorem FieldWork.Ranged.takeShare {r : State × FieldWork} (h : FieldWork.Ranged r) {t : FieldTok}
    (hd : r.2.Due t) : FieldWork.Ranged (State.takeShare r t) := by
  cases t with
  | styles =>
    intro n
    simpa only [State.takeShare, State.lane_transferStyles] using h n
  | slot k =>
    intro n
    obtain ⟨ps, hps, e⟩ := r.1.checkSlot_lane k n
    simp only [State.takeShare, e]
    exact ⟨(h n).within.struck hps, (h n).beyond⟩
  | lane m =>
    intro n
    rw [State.takeShare_step r hd n]
    by_cases hn : m = n
    · subst hn
      rw [if_pos rfl]
      exact (r.1.laneStep_stepped m _).within (h m)
    · rw [if_neg (by simpa using hn)]
      simp only [State.takeShare, State.laneShare,
        (r.1.laneStep_frame m (r.2.lanes.get m)).others n (Ne.symm hn)]
      exact h n
  | clock =>
    refine State.LaneLaw.ranged (laneLaw_firing.accumulate (h.law fun n => ?_)) _
    have := hd.2 n
    omega

theorem State.LaneLaw.fieldShares {s : State} (h : s.LaneLaw) (order : List FieldTok) :
    (s.fieldShares order).LaneLaw := by
  obtain ⟨w, hc, hr⟩ := State.fieldShares_induct (P := FieldWork.Ranged) order (h.ranged _)
    fun r t hd hr => hr.takeShare hd
  exact hr.law fun n => by have := hc.lanes n; dsimp only; omega

/-! ### The field start's work taken alone (notes/assumptions/11.md) -/

/-- A step of a lane's work other than the advance and the rebase keeps the law. -/
theorem State.LaneLaw.laneStep {s : State} (h : s.LaneLaw) (n : Fin 4) {w : LaneWork}
    (hw : w.step ≠ 2) : (s.laneStep n w).1.LaneLaw :=
  (State.laneLaw_iff _).mpr fun m => by
    by_cases hm : m = n
    · subst hm
      exact ((s.laneStep_stepped m w).within ((h.within m).at _)).of_ne (by omega)
    · rw [(s.laneStep_frame n w).others m hm]
      exact h.within m

/-- R42: the dwell count of a FLIP lane keeps the law. -/
theorem State.LaneLaw.laneStep_flip {s : State} (h : s.LaneLaw) (n : Fin 4) {w : LaneWork}
    (hw : w.step = 2) (hk : (s.lane n).form.kind = .flip) : (s.laneStep n w).1.LaneLaw := by
  rw [State.laneStep_advance s n hw]
  refine h.setLane ?_
  have hat := (h.within n).advance w.next
  have hform : ((s.lane n).advance w.next).1.form = (s.lane n).form := by
    rw [Lane.advance_flip _ hk]
    split <;> rfl
  refine { hat.within with offset := Nat.lt_of_not_le fun ho => ?_ }
  have hc := (hat.beyond ho).2
  rw [hform, hk] at hc
  cases hc

theorem State.pageDue_flip {s : State} {n : Fin 4} (h : s.pageDue n = true) :
    (s.lane n).form.kind = .flip := by
  simp only [State.pageDue, Bool.and_eq_true, beq_iff_eq] at h
  obtain ⟨⟨⟨⟨_, hk⟩, _⟩, _⟩, _⟩ := h
  exact hk

theorem State.passDue_works {s : State} {n : Fin 4} (h : s.passDue n = true) :
    (s.lane n).state.works = true := by
  simp only [State.passDue, Bool.and_eq_true] at h
  obtain ⟨⟨⟨⟨_, hw⟩, _⟩, _⟩, _⟩ := h
  exact hw

theorem laneLaw_lanesKept : LanesKept State.LaneLaw where
  lanes := fun h k => h.of_lanes k
  initial := fun {t} k => (State.laneLaw_iff _).mpr fun n => by
    have e : t.lane n = Lane.initial := by simp only [State.lane, k, Four.get_all]
    rw [e]
    exact (Lane.lawful_iff _).mp (by decide)
  act := fun _ a n h => h.actOnLane a n
  style := fun _ _ k h => h.setLane ((h.within _).setStyle k)
  form := fun s c h => by
    refine orBadArg_induct h fun n _ => orBadArg_induct h fun f _ => ?_
    dsimp only
    split
    · exact h
    · rename_i hk
      split
      · exact h
      · exact h.setLane ((h.within n).offerForm hk)
  motion := fun _ n c h => h.setLane ((h.within n).offerMotion c)
  restore := fun _ n b h => h.setLane ((h.within n).restore b)
  enqueue := fun s c h => by
    refine orBadArg_induct h fun n _ => orBadArg_induct h fun b _ => orBadArg_induct h fun i _ => ?_
    split
    · exact h
    · split
      · exact h
      · split
        · exact h
        · rename_i hfull
          exact h.setLane ((h.within n).enqueue (Nat.lt_of_not_le hfull) i b)
  dequeue := fun s c h => by
    refine orBadArg_induct h fun n _ => orBadArg_induct h fun i _ => ?_
    split
    · rename_i hc
      exact h.setLane ((h.within n).dequeue (List.idxOf_lt_length_of_mem (List.contains_iff_mem.mp hc)))
    · exact h
  clear := fun s c h => by
    refine orBadArg_induct h fun n _ => ?_
    split
    · rename_i ho
      refine h.setLane ((h.within n).setRing ?_ (Nat.zero_le _))
      simp [((h.within n).off ho).1.1]
    · exact h
  kill := fun s h => (State.laneLaw_iff _).mpr fun n => by
    rw [State.lane_killLanes]
    exact (h.within n).kill
  field := fun _ order h => h.fieldShares order
  passLimit := fun {s t n} h hx => by
    obtain rfl := next_eq hx
    dsimp only
    split
    · rename_i hd
      obtain ⟨hw, hl⟩ := (h.within n).retireHead (Lane.live_of_works (State.passDue_works hd)) s.items
      refine laneLaw_acts.stage (State.LaneLaw.setLane (s := s.quiet) h ?_) (.raiseIf _ _ _)
      split
      · exact hw
      · exact hw.setDwell hl
    · exact h
  pageEnd := fun {s t n} h hx => by
    obtain rfl := next_eq hx
    split
    · rename_i hd
      have h2 := State.LaneLaw.laneStep_flip (s := s.quiet) h n (w := { LaneWork.initial with step := 2 })
        rfl (State.pageDue_flip hd)
      exact (h2.laneStep n (by simp)).laneStep n (by simp)
    · exact h
  holdExpiry := fun {s t n k} h hx => by
    obtain rfl := next_eq hx
    dsimp only
    split
    · refine State.LaneLaw.setLane (s := s.quiet) h ((h.within n).modify k (fun p => ?_) fun p => ?_)
      · split <;> rfl
      · split
        · exact Envelope.holdStep_level _
        · rfl
    · exact h
  fadeOutEnd := fun {s t n} h hx => by
    obtain rfl := next_eq hx
    split
    · exact (State.LaneLaw.setLane (s := s.quiet) h (h.within n).enterOff).of_lanes rfl
    · exact h

/-- Settles O56: every change of a lane keeps its ranges, the advance of a field start up to the rebase
behind it. -/
theorem laneLawKept : Obligations.LaneLawKept :=
  fun _ _ h hx => laneLaw_lanesKept.step h hx

end Sys2Proof.Machine

/-! ## The laws of the kill latch and of the device states (R18, R54, R136, R137, R165, R166) -/

namespace Sys2Proof.Machine

/-! ### A field start's steps and the cue outputs -/

/-- R136: while the latch is set, cue-out actions are dropped. -/
theorem CueUnit.foldl_apply_of_latch {u : CueUnit} (h : u.latch = true) (as : List CueOut) :
    as.foldl CueUnit.apply u = u :=
  List.foldlRecOn (motive := fun v => v = u) as _ rfl fun v hv a _ => by
    rw [hv]
    unfold CueUnit.apply
    exact if_pos h

/-- R34, R44: all that a step of a lane's work does to the cue unit is to hand it cue-out actions. -/
theorem State.laneStep_cue (s : State) (n : Fin 4) (w : LaneWork) :
    ∃ as : List CueOut, (s.laneStep n w).1.cue = as.foldl CueUnit.apply s.cue := by
  have keep : ∃ as : List CueOut, s.cue = as.foldl CueUnit.apply s.cue := ⟨[], rfl⟩
  have hraise : ∀ (t : State) (c : Bool) (e : Event), (t.raiseIf c e).cue = t.cue := fun t c e => by
    cases c <;> rfl
  unfold State.laneStep
  dsimp only
  split
  case h_5 =>
    rw [hraise]
    exact keep
  case h_6 =>
    unfold State.crossStep
    dsimp only
    split
    · exact ⟨_, rfl⟩
    · exact keep
  case h_7 =>
    unfold State.placeStep
    dsimp only
    split
    · exact keep
    · split
      · rw [hraise]
        exact keep
      · split
        · rw [hraise]
          exact ⟨_, rfl⟩
        · exact keep
  case h_8 =>
    unfold State.envelopeStep
    dsimp only
    split <;> exact keep
  case h_11 =>
    unfold State.offStep
    dsimp only
    split <;> exact keep
  all_goals exact keep

/-- R8, R19: of a lane in OFF or KILLED a step of its work changes nothing but by the take. -/
theorem Lane.Stepped.of_rest {s : State} {l l' : Lane} {w : LaneWork} (h : Lane.Stepped s l w l')
    (hl : l.state = .off ∨ l.state = .killed) : l' = l ∨ l' = l.takeApply := by
  have hworks : l.state.works = false := by rcases hl with e | e <;> rw [e] <;> rfl
  have hplaces : l.places = false := by
    unfold Lane.places
    rcases hl with e | e <;> rw [e]
  cases h with
  | take => exact .inr rfl
  | keep => exact .inl rfl
  | cross _ hw | envelope _ hw => rw [hworks] at hw; cases hw
  | placeStrip _ _ _ hp | placePage _ _ hp => rw [hplaces] at hp; cases hp
  | begin =>
    left
    unfold Lane.begin
    rcases hl with e | e <;> simp [e]
  | advance => exact .inl (by rw [Lane.advance_of_not_works _ hworks])
  | rebase => exact .inl (by simp [Lane.rebaseStep, hworks])
  | retire => exact .inl (by simp [Lane.retireStep, hworks])
  | drain =>
    left
    unfold Lane.drainCheck
    rcases hl with e | e <;> simp [e]
  | fade =>
    left
    unfold Lane.fadeStep
    rcases hl with e | e <;> simp [e]
  | off _ hf =>
    have := (Lane.fadeEnds_iff l).mp hf
    rcases hl with e | e <;> simp [e] at this

/-! ### Dark: nothing on air while the latch is set -/

/-- R137, R136, R18: a lane in OFF or KILLED. -/
abbrev Lane.Dark (l : Lane) : Prop := l.state = .off ∨ l.state = .killed

/-- R137, R136, R18: with the latch set both outputs are low and every lane is dark. -/
def State.Dark (s : State) : Prop :=
  s.cue.latch = true → s.cue.out0 = false ∧ s.cue.out1 = false ∧ ∀ n, (s.lane n).Dark

/-- A change in ACTIVE that keeps the device on air and the part dark where it was. -/
structure State.AirFrame (s t : State) : Prop where
  device : t.device = s.device
  bus    : t.loader.bus = s.loader.bus
  resetN : t.pins.resetN = s.pins.resetN
  killN  : t.pins.killN = s.pins.killN
  latch  : t.cue.latch = s.cue.latch
  dark   : s.Dark → t.Dark

/-- The laws of the kill latch and of the device states. -/
structure State.Safe (s : State) : Prop where
  kill   : s.KillLaw
  device : s.DeviceLaw

/-- The same, in ACTIVE. -/
structure State.SafeOnAir (s : State) : Prop where
  safe   : s.Safe
  active : s.device = .active

theorem State.SafeOnAir.of_air {s t : State} (h : s.SafeOnAir) (k : s.AirFrame t) : t.SafeOnAir := by
  obtain ⟨⟨⟨hdark, hkill⟩, hbus, hreset, _⟩, hact⟩ := h
  have hact' : t.device = .active := k.device.trans hact
  refine ⟨⟨⟨k.dark hdark, fun hr hk => ?_⟩, ?_, ?_, fun hd => absurd hact' hd⟩, hact'⟩
  · exact k.latch.trans (hkill (k.resetN ▸ hr) (k.killN ▸ hk))
  · rw [k.bus, k.device]
    exact hbus
  · rw [k.resetN, k.device, k.bus]
    exact hreset

/-- What keeps the stage keeps the laws. -/
theorem State.Safe.of_stage {s t : State} (h : s.Safe) (k : s.StageFrame t) : t.Safe := by
  obtain ⟨⟨hdark, hkill⟩, hbus, hreset, hoff⟩ := h
  have hlane : ∀ n, t.lane n = s.lane n := fun n => congrArg (·.get n) k.lanes
  refine ⟨⟨?_, ?_⟩, ?_, ?_, fun hd => ?_⟩
  · simpa only [k.latch, k.out0, k.out1, hlane] using hdark
  · simpa only [k.resetN, k.killN, k.latch] using hkill
  · simpa only [k.bus, k.device] using hbus
  · simpa only [k.resetN, k.device, k.bus] using hreset
  · rw [k.device] at hd
    simpa only [hlane, k.quotes hd] using hoff hd

theorem State.SafeOnAir.of_stage {s t : State} (h : s.SafeOnAir) (k : s.StageFrame t) : t.SafeOnAir :=
  ⟨h.safe.of_stage k, k.device.trans h.active⟩

/-- A lane's new record that is dark where the latch asks it. -/
theorem State.AirFrame.setLane {s : State} {n : Fin 4} {l : Lane}
    (hl : s.cue.latch = true → (s.lane n).Dark → l.Dark) : s.AirFrame (s.setLane n l) :=
  ⟨rfl, rfl, rfl, rfl, rfl, fun h hlatch => ⟨(h hlatch).1, (h hlatch).2.1, fun m => by
    by_cases hm : m = n
    · subst hm
      rw [State.lane_setLane_self]
      exact hl hlatch ((h hlatch).2.2 m)
    · rw [State.lane_setLane_ne s l hm]
      exact (h hlatch).2.2 m⟩⟩

/-- A lane's new record in the same state. -/
theorem State.AirFrame.setLane_state {s : State} {n : Fin 4} {l : Lane}
    (hl : l.state = (s.lane n).state) : s.AirFrame (s.setLane n l) :=
  .setLane fun _ hd => by unfold Lane.Dark; rwa [hl]

/-- R10, R137: while the latch is set no lane action changes the state of a dark lane. -/
theorem State.actOnLane_of_dark {s : State} (hlatch : s.cue.latch = true) (a : LaneAction) {n : Fin 4}
    (hd : (s.lane n).Dark) : ((s.actOnLane a n).1.lane n).state = (s.lane n).state := by
  cases a with
  | start => simp [State.actOnLane, State.startLane, hlatch]
  | stopDrain => rcases hd with e | e <;> simp [State.actOnLane, State.stopDrainLane, e]
  | stopFade => rcases hd with e | e <;> simp [State.actOnLane, State.stopFadeLane, e]
  | hold => rcases hd with e | e <;> simp [State.actOnLane, State.holdLane, e]
  | resume => rcases hd with e | e <;> simp [State.actOnLane, State.resumeLane, e]
  | take =>
    simp only [State.actOnLane, State.takeLane]
    split <;> simp

theorem safeOnAir_acts : KeptByActs State.SafeOnAir where
  stage := fun h k => h.of_stage k
  act := fun s a n h => by
    obtain ⟨l, e⟩ := s.actOnLane_frame a n
    rw [e]
    refine h.of_air (.setLane fun hlatch hd => ?_)
    have hs := State.actOnLane_of_dark hlatch a hd
    rw [e, State.lane_setLane_self] at hs
    unfold Lane.Dark
    rwa [hs]

theorem Lane.setStyle_state (l : Lane) (k : Nat) : (l.setStyle k).state = l.state := by
  unfold Lane.setStyle
  split <;> rfl

theorem safeOnAir_firing : KeptByFiring State.SafeOnAir :=
  safeOnAir_acts.firing fun _ _ k h => h.of_air (.setLane_state (Lane.setStyle_state _ k))

/-- R8, R34, R44: a step of a lane's work. -/
theorem State.AirFrame.laneStep (s : State) (n : Fin 4) (w : LaneWork) :
    s.AirFrame (s.laneStep n w).1 := by
  have hf := s.laneStep_frame n w
  obtain ⟨as, hcue⟩ := s.laneStep_cue n w
  refine ⟨hf.device, congrArg Loader.bus hf.loader, congrArg Pins.resetN hf.pins,
    congrArg Pins.killN hf.pins, hf.latch, fun h hlatch => ?_⟩
  obtain ⟨h0, h1, hl⟩ := h (hf.latch ▸ hlatch)
  rw [CueUnit.foldl_apply_of_latch (hf.latch ▸ hlatch)] at hcue
  refine ⟨hcue ▸ h0, hcue ▸ h1, fun m => ?_⟩
  by_cases hm : m = n
  · subst hm
    rcases (s.laneStep_stepped m w).of_rest (hl m) with e | e
    · rw [e]
      exact hl m
    · rw [e]
      unfold Lane.Dark
      rw [Lane.takeApply_state]
      exact hl m
  · rw [hf.others m hm]
    exact hl m

theorem State.checkSlot_rest (s : State) (k : Nat) :
    s.checkSlot k = { s with lanes := (s.checkSlot k).lanes, quotes := (s.checkSlot k).quotes } := by
  unfold State.checkSlot
  split
  · rfl
  · split <;> rfl

/-- R54, R57: a transfer check. -/
theorem State.AirFrame.checkSlot (s : State) (k : Nat) : s.AirFrame (s.checkSlot k) := by
  have hlane : ∀ n, ((s.checkSlot k).lane n).state = (s.lane n).state := fun n => by
    obtain ⟨ps, _, e⟩ := s.checkSlot_lane k n
    rw [e]
  have e := s.checkSlot_rest k
  have hcue : (s.checkSlot k).cue = s.cue := (congrArg State.cue e).trans rfl
  have hpins : (s.checkSlot k).pins = s.pins := (congrArg State.pins e).trans rfl
  have hloader : (s.checkSlot k).loader = s.loader := (congrArg State.loader e).trans rfl
  refine ⟨(congrArg State.device e).trans rfl, congrArg Loader.bus hloader, congrArg Pins.resetN hpins,
    congrArg Pins.killN hpins, congrArg CueUnit.latch hcue, fun h => ?_⟩
  simpa only [State.Dark, Lane.Dark, hcue, hlane] using h

theorem State.StageFrame.transferStyles (s : State) : s.StageFrame s.transferStyles := by
  rw [s.transferStyles_eq]
  constructor <;> intros <;> rfl

/-- R8: a field start in ACTIVE. -/
theorem State.SafeOnAir.fieldShares {s : State} (h : s.SafeOnAir) (order : List FieldTok) :
    (s.fieldShares order).SafeOnAir := by
  obtain ⟨_, _, hf⟩ := State.fieldShares_induct (P := fun r => r.1.SafeOnAir) order h
    fun r t _ hr => by
      cases t with
      | styles => exact hr.of_stage (.transferStyles r.1)
      | slot k => exact hr.of_air (.checkSlot r.1 k)
      | lane n => exact hr.of_air (.laneStep r.1 n _)
      | clock => exact safeOnAir_firing.accumulate hr
  exact hf

/-! ### The commands -/

/-- R148: a command of one of the 24 codes other than RELOAD's executes in ACTIVE alone. -/
theorem State.Safe.run {s : State} {code : Nat} {eff : Effect} (hcode : code ≠ reloadCode) (h : s.Safe)
    (heff : ∀ c, s.quiet.SafeOnAir → s.quiet.pins.resetN = true → (eff c s.quiet).1.SafeOnAir) :
    (s.run code eff).Safe := by
  have hquiet := h.of_stage (.quiet s)
  refine State.runIf_induct hquiet (fun t e r ht => ht.of_stage (.complete t e r)) fun e hn hm => ?_
  obtain ⟨hmay, _, hact⟩ := State.nextCommand_eq_some.mp hn
  have hcode' : e.command.code = code := by simpa using hm
  simp only [State.mayExecute, Bool.and_eq_true] at hmay
  obtain ⟨⟨⟨⟨hr, _⟩, _⟩, _⟩, _⟩ := hmay
  rcases hact with hact | hre
  · exact (heff e.command ⟨hquiet, hact⟩ hr).safe
  · exact absurd (hcode'.symm.trans hre) hcode

/-- The effects on the parameters and the ring of one lane keep its state. -/
theorem State.SafeOnAir.setLane {s : State} {n : Fin 4} {l : Lane} (h : s.SafeOnAir)
    (hl : l.state = (s.lane n).state) : (s.setLane n l).SafeOnAir := h.of_air (.setLane_state hl)

theorem Lane.offerForm_state (l : Lane) (f : Form) : (l.offerForm f).state = l.state := by
  unfold Lane.offerForm
  split <;> rfl

theorem Lane.offerMotion_state (l : Lane) (m : Motion) : (l.offerMotion m).state = l.state := by
  unfold Lane.offerMotion
  split <;> rfl

theorem State.SafeOnAir.laneForm {s : State} (h : s.SafeOnAir) (c : Command) :
    (laneFormEffect c s).1.SafeOnAir := by
  refine orBadArg_induct h fun n _ => orBadArg_induct h fun f _ => ?_
  dsimp only
  split
  · exact h
  · split
    · exact h
    · exact h.setLane (Lane.offerForm_state _ f)

theorem State.SafeOnAir.enqueue {s : State} (h : s.SafeOnAir) (c : Command) :
    (enqueueEffect c s).1.SafeOnAir := by
  refine orBadArg_induct h fun n _ => orBadArg_induct h fun b _ => orBadArg_induct h fun i _ => ?_
  split
  · exact h
  · split
    · exact h
    · split
      · exact h
      · exact h.setLane (by unfold Lane.enqueue; split <;> rfl)

theorem State.SafeOnAir.dequeue {s : State} (h : s.SafeOnAir) (c : Command) :
    (dequeueEffect c s).1.SafeOnAir := by
  refine orBadArg_induct h fun n _ => orBadArg_induct h fun i _ => ?_
  split
  · exact h.setLane (by unfold Lane.dequeue; split <;> rfl)
  · exact h

theorem State.SafeOnAir.clear {s : State} (h : s.SafeOnAir) (c : Command) :
    (clearEffect c s).1.SafeOnAir := by
  refine orBadArg_induct h fun n _ => ?_
  split
  · exact h.setLane rfl
  · exact h

/-- R136: CUEOUT_LEVEL is refused while the latch is set. -/
theorem State.SafeOnAir.cueoutLevel {s : State} (h : s.SafeOnAir) (c : Command) :
    (cueoutLevelEffect c s).1.SafeOnAir := by
  refine orBadArg_induct h fun ops _ => ?_
  split
  · exact h
  · rename_i hl
    exact h.of_air ⟨rfl, rfl, rfl, rfl, rfl, fun _ hlatch => absurd hlatch hl⟩

/-- R139: RESTORE asks KILL_N high, and clears the latch. -/
theorem State.SafeOnAir.restore {s : State} (h : s.SafeOnAir) (c : Command) :
    (restoreEffect c s).1.SafeOnAir := by
  refine orBadArg_induct h fun b _ => ?_
  split
  · exact h
  · split
    · exact h
    · rename_i hk
      have hkill : s.pins.killN = true := by simpa using hk
      have hbase : ({ s with cue := { s.cue with latch := false } } : State).SafeOnAir := by
        obtain ⟨⟨_, hdev⟩, hact⟩ := h
        refine ⟨⟨⟨nofun, fun _ hlow => ?_⟩, hdev⟩, hact⟩
        rw [show s.pins.killN = false from hlow] at hkill
        cases hkill
      exact (List.foldlRecOn (motive := fun t : State => t.SafeOnAir ∧ t.cue.latch = false) _ _
        ⟨hbase, rfl⟩ fun t ht n _ =>
          ⟨ht.1.of_air (.setLane fun hl => by rw [ht.2] at hl; cases hl), ht.2⟩).1

/-- R170: the clearing of REINIT. -/
theorem State.SafeOnAir.clearProgram {s : State} (h : s.SafeOnAir) : s.clearProgram.SafeOnAir := by
  refine h.of_air ⟨rfl, rfl, rfl, rfl, rfl, fun hd hlatch => ?_⟩
  obtain ⟨h0, h1, _⟩ := hd hlatch
  refine ⟨h0, h1, fun n => .inl ?_⟩
  simp only [State.lane, State.clearProgram, Four.get_all, Lane.initial]

/-- R150, R170: the entry to LOADING, out of reset. -/
theorem State.Safe.enterLoading {s : State} (h : s.Safe) (hr : s.pins.resetN = true) :
    s.enterLoading.Safe := by
  refine State.Safe.of_stage ?_ (.enterLoading s)
  obtain ⟨⟨hdark, hkill⟩, _⟩ := h
  have hlane : ∀ n, (Four.all Lane.initial).get n = Lane.initial := Four.get_all _
  refine ⟨⟨fun hlatch => ?_, hkill⟩, fun _ => rfl, fun hlow => ?_, fun _ => ⟨fun n => ?_, ?_⟩⟩
  · obtain ⟨h0, h1, _⟩ := hdark hlatch
    exact ⟨h0, h1, fun n => .inl (by rw [State.lane, hlane]; rfl)⟩
  · rw [show s.pins.resetN = false from hlow] at hr
    cases hr
  · rw [State.lane, hlane]
    exact ⟨rfl, rfl⟩
  · exact fun e he => nomatch he

/-- R164, R169: while the part is in LOADING, out of reset, any device state may follow whose loader
reads in LOADING alone. -/
theorem State.Safe.of_loading {s t : State} (h : s.Safe) (hd : s.device = .loading)
    (hr : s.pins.resetN = true)
    (hbus : t.loader.bus ≠ .idle → t.device = .loading)
    (k : t = { s with device := t.device, loader := t.loader, out := t.out }) : t.Safe := by
  obtain ⟨hkill, _, _, hoff⟩ := h
  have hoff := hoff (by rw [hd]; exact fun e => nomatch e)
  rw [k]
  refine ⟨hkill, hbus, fun hlow => ?_, fun _ => hoff⟩
  rw [show s.pins.resetN = false from hlow] at hr
  cases hr

/-- R165, R166: a loader that is on the bus is so in LOADING and out of reset. -/
theorem State.Safe.of_bus {s : State} (h : s.Safe) (hb : s.loader.bus ≠ .idle) :
    s.device = .loading ∧ s.pins.resetN = true := by
  obtain ⟨_, hbus, hreset, _⟩ := h
  exact ⟨hbus hb, Bool.eq_true_of_not_eq_false fun e => hb (hreset e).2⟩

/-- R169: a failed load. -/
theorem State.Safe.failLoad {s : State} (h : s.Safe) (hb : s.loader.bus ≠ .idle) (r : LoadReason) :
    (s.failLoad r).Safe := by
  obtain ⟨hd, hr⟩ := h.of_bus hb
  have hend := State.StageFrame.endBus s
  refine State.Safe.of_stage ?_ (.loadFail s.endBus r)
  exact (h.of_stage hend).of_loading (hend.device.trans hd) (hend.resetN.trans hr)
    (fun hn => absurd rfl hn) rfl

/-- R168, R169: a byte of the image. -/
theorem State.Safe.receiveByte {s : State} (h : s.Safe) (hb : s.loader.bus ≠ .idle) (b : Byte) :
    (s.receiveByte b).Safe := by
  obtain ⟨hd, hr⟩ := h.of_bus hb
  unfold State.receiveByte
  generalize hu : { s with loader :=
    { s.loader with bus := .reading, staging := s.loader.staging ++ [b] } } = u
  have h' : u.Safe := h.of_loading hd hr (fun _ => hu ▸ hd) (hu ▸ rfl)
  have hb' : u.loader.bus ≠ .idle := by rw [← hu]; exact fun e => nomatch e
  rcases u.afterByte_cases with e | ⟨r, e⟩ | ⟨i, c, e⟩
  · rwa [e]
  · rw [e]
    exact h'.failLoad hb' r
  · rw [e]
    obtain ⟨hd', hr'⟩ := h'.of_bus hb'
    have hend := State.StageFrame.endBus u
    refine State.Safe.of_stage ?_ (.loadDone u.endBus i c)
    exact (h'.of_stage hend).of_loading (hend.device.trans hd') (hend.resetN.trans hr')
      (fun hn => absurd rfl hn) rfl



/-! ### The pins -/

theorem Lane.kill_dark (l : Lane) : l.kill.Dark := by
  unfold Lane.kill Lane.Dark Lane.enterOff
  cases h : l.state <;> simp [h]

theorem Lane.kill_of_off {l : Lane} (h : l.state = .off) : l.kill = l := by
  unfold Lane.kill
  rw [h]

/-- R137, R136, R18: the setting of the latch. -/
theorem State.DeviceLaw.setLatch {s : State} (h : s.DeviceLaw) : s.setLatch.Safe := by
  obtain ⟨hbus, hreset, hoff⟩ := h
  refine State.Safe.of_stage ?_ (.raise _ _)
  refine ⟨⟨fun _ => ⟨rfl, rfl, fun n => ?_⟩, fun _ _ => rfl⟩, hbus, hreset, fun hd => ?_⟩
  · exact (s.lane_killLanes n).symm ▸ Lane.kill_dark _
  · obtain ⟨hlanes, hquotes⟩ := hoff hd
    refine ⟨fun n => ?_, hquotes⟩
    exact (s.lane_killLanes n).symm ▸ (Lane.kill_of_off (hlanes n).1).symm ▸ hlanes n

/-- R137: a fall of KILL_N, out of reset. -/
theorem State.Safe.killFall {s : State} (h : s.Safe) :
    ({ s with pins := { s.pins with killN := false } } : State).killFall.Safe := by
  obtain ⟨⟨hdark, _⟩, hdev⟩ := h
  unfold State.killFall
  split
  · rename_i hlatch
    refine State.Safe.of_stage ?_ (.raise _ _)
    exact ⟨⟨hdark, fun _ _ => hlatch⟩, hdev⟩
  · exact State.DeviceLaw.setLatch hdev

/-- R166: while RESET_N is low the kill pin does not matter. -/
theorem State.Safe.killN_low {s : State} (h : s.Safe) (hr : s.pins.resetN = false) :
    ({ s with pins := { s.pins with killN := false } } : State).Safe := by
  obtain ⟨⟨hdark, _⟩, hdev⟩ := h
  refine ⟨⟨hdark, fun hhigh => ?_⟩, hdev⟩
  rw [show s.pins.resetN = true from hhigh] at hr
  cases hr

/-- R137: a rise of KILL_N keeps the latch. -/
theorem State.Safe.killN_high {s : State} (h : s.Safe) :
    ({ s with pins := { s.pins with killN := true } } : State).Safe := by
  obtain ⟨⟨hdark, _⟩, hdev⟩ := h
  exact ⟨⟨hdark, fun _ hlow => nomatch hlow⟩, hdev⟩

/-- R166: power-on reset. -/
theorem State.safe_powerOn (s : State) : s.powerOn.Safe := by
  have hlane : ∀ n, (Four.all Lane.initial).get n = Lane.initial := Four.get_all _
  refine ⟨⟨nofun, nofun⟩, fun _ => rfl, fun _ => ⟨rfl, rfl⟩, fun _ => ⟨fun n => ?_, nofun⟩⟩
  rw [show s.powerOn.lane n = Lane.initial from hlane n]
  exact ⟨rfl, rfl⟩

/-- R166, R137, R165: the release of reset. -/
theorem State.Safe.releaseReset {s : State} (h : s.Safe) (hr : s.pins.resetN = false) (straps : Straps)
    (killN : Bool) : (s.releaseReset straps killN).Safe := by
  obtain ⟨⟨hdark, _⟩, hdev⟩ := h
  obtain ⟨_, hreset, hoff⟩ := hdev
  have hoff := hoff (by rw [(hreset hr).1]; exact fun e => nomatch e)
  unfold State.releaseReset
  dsimp only
  split
  · rename_i hk
    refine ⟨⟨hdark, fun _ hlow => ?_⟩, fun _ => rfl, nofun, fun _ => hoff⟩
    rw [show killN = false from hlow] at hk
    cases hk
  · exact State.DeviceLaw.setLatch ⟨fun _ => rfl, nofun, fun _ => hoff⟩

/-! ### Every step -/

/-- A field start's work taken alone, and a second tick, have their causes in ACTIVE. -/
theorem State.active_of_due {s : State} {n : Fin 4}
    (h : s.passDue n = true ∨ s.pageDue n = true ∨ s.fadeDue n = true ∨ s.tickDue = true) :
    s.device = .active := by
  simp only [State.passDue, State.pageDue, State.fadeDue, State.tickDue, Bool.and_eq_true,
    beq_iff_eq] at h
  rcases h with ⟨⟨⟨⟨hd, _⟩, _⟩, _⟩, _⟩ | ⟨⟨⟨⟨hd, _⟩, _⟩, _⟩, _⟩ | ⟨hd, _⟩ | ⟨hd, _⟩ <;> exact hd

/-- R31, R32: a retirement on a lane that works is no change of a dark lane. -/
theorem State.AirFrame.setLane_works {s : State} {n : Fin 4} (l : Lane)
    (hw : (s.lane n).state.works = true) : s.AirFrame (s.setLane n l) :=
  .setLane fun _ hd => by rcases hd with e | e <;> rw [e] at hw <;> cases hw

/-- Every command keeps the laws of the kill latch and of the device states. -/
theorem State.Safe.exec {i : Instr} {s t : State} (h : s.Safe) (hx : exec i s = .next t) : t.Safe := by
  have quiet : s.quiet.Safe := h.of_stage (.quiet s)
  have onAir : s.device = .active → s.quiet.SafeOnAir := fun hd => ⟨quiet, hd⟩
  have ite : ∀ {p : Prop} [Decidable p] {u v : State}, (p → u.Safe) → (¬p → v.Safe) →
      (if p then u else v).Safe := fun hu hv => by split; exacts [hu ‹_›, hv ‹_›]
  by_cases hoff : i.offStage = true
  · exact h.of_stage (exec_offStage hoff hx)
  cases i
  case laneForm => exact next_eq hx ▸ h.run (by decide) fun c k _ => k.laneForm c
  case laneMotion =>
    exact next_eq hx ▸ h.run (by decide) fun c k _ =>
      orBadArg_induct k fun n _ => k.setLane (Lane.offerMotion_state _ _)
  case take => exact next_eq hx ▸ h.run (by decide) fun c k _ => safeOnAir_acts.maskEffect _ c k
  case start => exact next_eq hx ▸ h.run (by decide) fun c k _ => safeOnAir_acts.maskEffect _ c k
  case stop =>
    exact next_eq hx ▸ h.run (by decide) fun c k _ =>
      orBadArg_induct k fun a _ => safeOnAir_acts.maskEffect a c k
  case hold => exact next_eq hx ▸ h.run (by decide) fun c k _ => safeOnAir_acts.maskEffect _ c k
  case resume => exact next_eq hx ▸ h.run (by decide) fun c k _ => safeOnAir_acts.maskEffect _ c k
  case restore => exact next_eq hx ▸ h.run (by decide) fun c k _ => k.restore c
  case enqueue => exact next_eq hx ▸ h.run (by decide) fun c k _ => k.enqueue c
  case dequeue => exact next_eq hx ▸ h.run (by decide) fun c k _ => k.dequeue c
  case clear => exact next_eq hx ▸ h.run (by decide) fun c k _ => k.clear c
  case cueoutLevel => exact next_eq hx ▸ h.run (by decide) fun c k _ => k.cueoutLevel c
  case reinit => exact next_eq hx ▸ h.run (by decide) fun _ k _ => k.clearProgram
  case reload =>
    obtain rfl := next_eq hx
    rcases s.quiet.runReload_cases with e | ⟨hm, ⟨x, e⟩ | e | ⟨q, e⟩⟩ <;> rw [e]
    · exact quiet
    · exact quiet.of_stage (.complete _ _ _)
    · simp only [State.mayExecute, Bool.and_eq_true] at hm
      obtain ⟨⟨⟨⟨hr, _⟩, _⟩, _⟩, _⟩ := hm
      exact quiet.enterLoading hr
    · exact quiet.of_stage (.intake _ q)
  case abortAnswer =>
    refine next_eq hx ▸ ite (fun hm => ?_) fun _ => quiet
    rcases s.quiet.abortNext_cases with e | ⟨u, k, e⟩
    · exact quiet.of_stage e
    · simp only [State.mayAbort, Bool.and_eq_true] at hm
      obtain ⟨⟨hr, _⟩, _⟩ := hm
      exact e ▸ (quiet.of_stage k).enterLoading (k.resetN.trans hr)
  case scanRead addr burst levels order =>
    refine next_eq hx ▸ ite (fun _ => ?_) fun _ => quiet
    have hread : s.StageFrame ({ s.quiet with pins := { s.pins with cueIn := levels } }.emit
        (.memRead .scan addr burst.len burst.size)) := by constructor <;> intros <;> rfl
    dsimp only
    split
    · exact ite (fun hd => (safeOnAir_acts.handLine _ _ ⟨h.of_stage hread, hd⟩).safe)
        fun _ => h.of_stage hread
    · exact h.of_stage hread
  case fieldStart parity order =>
    have hhead : s.StageFrame (s.quiet.fieldHead parity) := by constructor <;> intros <;> rfl
    exact next_eq hx ▸ ite (fun _ => ite
      (fun hd => (State.SafeOnAir.fieldShares ⟨h.of_stage hhead, hd⟩ order).safe)
      fun _ => h.of_stage hhead) fun _ => quiet
  case passLimitReached n =>
    refine next_eq hx ▸ ite (fun hd => ?_) fun _ => quiet
    exact (((onAir (State.active_of_due (.inl hd))).of_air
      (.setLane_works _ (State.passDue_works hd))).of_stage (.raiseIf _ _ _)).safe
  case pageEnd n =>
    refine next_eq hx ▸ ite (fun hd => ?_) fun _ => quiet
    exact ((((onAir (State.active_of_due (.inr (.inl hd)))).of_air (.laneStep _ n _)).of_air
      (.laneStep _ n _)).of_air (.laneStep _ n _)).safe
  case holdExpiry n k =>
    refine next_eq hx ▸ ite (fun hd => ?_) fun _ => quiet
    refine ((onAir hd.1).setLane ?_).safe
    rfl
  case fadeOutEnd n =>
    refine next_eq hx ▸ ite (fun hd => ?_) fun _ => quiet
    exact (((onAir (State.active_of_due (.inr (.inr (.inl hd))))).of_air
      (.setLane fun _ _ => .inl rfl)).of_stage (.raise _ _)).safe
  case secondTick =>
    exact next_eq hx ▸ ite (fun hd => (safeOnAir_firing.accumulate
      (onAir (State.active_of_due (n := 0) (.inr (.inr (.inr hd)))))).safe) fun _ => quiet
  case killLatchSet =>
    refine next_eq hx ▸ ite (fun _ => ite (fun _ => quiet.killFall) fun hr => ?_) fun _ => quiet
    exact quiet.killN_low (Bool.eq_false_iff.mpr hr)
  case killNRise => exact next_eq hx ▸ quiet.killN_high
  case powerOnReset => exact next_eq hx ▸ s.safe_powerOn
  case resetRelease straps killN =>
    exact next_eq hx ▸ ite (fun _ => quiet) fun hr =>
      quiet.releaseReset (Bool.eq_false_iff.mpr hr) straps killN
  case busFreeStart =>
    refine next_eq hx ▸ ite (fun hb => ?_) fun _ => quiet
    obtain ⟨hd, hr⟩ := quiet.of_bus (by rw [show s.quiet.loader.bus = .waiting from hb]; exact nofun)
    refine State.Safe.of_stage ?_ (.emit _ _)
    exact quiet.of_loading hd hr (fun _ => hd) rfl
  case arbitrationLost =>
    refine next_eq hx ▸ ite (fun hb => ?_) fun _ => quiet
    obtain ⟨hd, hr⟩ := quiet.of_bus (by
      intro e
      rw [show s.loader.bus = .idle from e] at hb
      cases hb)
    refine State.Safe.of_stage ?_ (.emit _ _)
    exact quiet.of_loading hd hr (fun _ => hd) rfl
  case imageByteReceived b straps =>
    refine next_eq hx ▸ ite (fun hb => ?_) fun _ => quiet
    have hstraps : s.StageFrame (s.quiet.readStraps straps) := by constructor <;> intros <;> rfl
    refine (h.of_stage hstraps).receiveByte (fun e => ?_) b
    rw [show s.loader.bus = .idle from e] at hb
    cases hb
  case noDevice straps =>
    refine next_eq hx ▸ ite (fun hb => ?_) fun _ => quiet
    have hstraps : s.StageFrame (s.quiet.readStraps straps) := by constructor <;> intros <;> rfl
    refine (h.of_stage hstraps).failLoad (fun e => ?_) _
    rw [show s.loader.bus = .idle from e] at hb
    cases hb
  case busTimeout straps =>
    refine next_eq hx ▸ ite (fun _ => quiet) fun hb => ?_
    have hstraps : s.StageFrame (s.quiet.readStraps straps) := by constructor <;> intros <;> rfl
    exact (h.of_stage hstraps).failLoad hb _
  all_goals exact absurd rfl hoff

/-- Settles O55: the setting of the latch cuts every lane, no lane action revives one while it is set,
and lanes and slots change in ACTIVE alone. -/
theorem killAndDeviceLawsKept : Obligations.KillAndDeviceLawsKept := by
  intro s t hkill hdev hx
  have hsafe : t.Safe := by
    cases hp : s.pending with
    | nil =>
      rw [step_of_idle hp] at hx
      exact next_eq hx ▸ ⟨hkill, hdev⟩
    | cons c rest =>
      rw [step_of_pending hp] at hx
      exact State.Safe.exec (s := { s with pending := rest }) ⟨hkill, hdev⟩ hx
  exact ⟨hsafe.kill, hsafe.device⟩

end Sys2Proof.Machine

/-! ## A killed lane at a field start (R19, R89) -/

namespace Sys2Proof.Machine

theorem exec_fieldStart_of_onAir {s : State} (h : s.OnAir) (parity : Bool) (order : List FieldTok) :
    exec (.fieldStart parity order) s = .next ((s.quiet.fieldHead parity).fieldShares order) := by
  obtain ⟨hr, hd⟩ := h
  change Host.Outcome.next (ite _ (ite _ _ _) _) = _
  rw [if_pos hr, if_pos (show (s.quiet.fieldHead parity).device = .active from hd)]

/-- R19, R89: what of a placement stands still under the latch. -/
abbrev Placement.still (p : Placement) : Int × Nat × Nat × Int × Bool × Nat :=
  (p.start, p.width, p.style, p.lastEdge, p.noRepeat, p.env.level)

/-- R19, R89: `l'` is the killed lane `l`, frozen but for its parameters and its take mark. -/
structure Lane.Frozen (l l' : Lane) : Prop where
  state      : l'.state = .killed
  offset     : l'.offset = l.offset
  passCount  : l'.passCount = l.passCount
  dwellCount : l'.dwellCount = l.dwellCount
  fade       : l'.fade = l.fade
  ring       : l'.ring = l.ring
  resume     : l'.resume = l.resume
  motionOn   : l'.motionOn = l.motionOn
  placed     : l'.placed.map Placement.still = l.placed.map Placement.still

theorem Lane.Frozen.refl {l : Lane} (h : l.state = .killed) : l.Frozen l :=
  ⟨h, rfl, rfl, rfl, rfl, rfl, rfl, rfl, rfl⟩

/-- R5, R7, R19: a change of parameters and take mark leaves the lane frozen. -/
theorem Lane.Frozen.setParams {l l' l'' : Lane} (h : l.Frozen l') (k : l'' =
    { l' with
      form := l''.form, motion := l''.motion, pendForm := l''.pendForm, pendMotion := l''.pendMotion
      takeMark := l''.takeMark }) : l.Frozen l'' := by
  obtain ⟨h1, h2, h3, h4, h5, h6, h7, h8, h9⟩ := h
  rw [k]
  exact ⟨h1, h2, h3, h4, h5, h6, h7, h8, h9⟩

theorem Lane.Frozen.takeApply {l l' : Lane} (h : l.Frozen l') : l.Frozen l'.takeApply := by
  cases hm : l'.takeMark
  · rwa [Lane.takeApply_of_not hm]
  · exact h.setParams (by rw [Lane.takeApply_eq hm])

theorem Lane.Frozen.setStyle {l l' : Lane} (h : l.Frozen l') (k : Nat) : l.Frozen (l'.setStyle k) := by
  unfold Lane.setStyle
  split <;> exact h.setParams rfl

/-- R57, R89: a transfer keeps the levels of a frozen run. -/
theorem Lane.Frozen.struck {l l' : Lane} (h : l.Frozen l') {ps : List Placement}
    (hps : List.Forall₂ Placement.Struck l'.placed ps) : l.Frozen { l' with placed := ps } where
  state := h.state
  offset := h.offset
  passCount := h.passCount
  dwellCount := h.dwellCount
  fade := h.fade
  ring := h.ring
  resume := h.resume
  motionOn := h.motionOn
  placed := by
    refine (Placement.map_of_struck (fun p p' hp => ?_) hps).trans h.placed
    simp only [Placement.still, hp.start, hp.width, hp.style, hp.lastEdge, hp.noRepeat, hp.level]

/-- R10, R129: of the lane actions TAKE alone is not refused by a killed lane; it sets the take mark. -/
theorem State.actOnLane_of_killed {s : State} {n : Fin 4} (h : (s.lane n).state = .killed)
    (a : LaneAction) :
    (s.actOnLane a n).1 = s ∨ (s.actOnLane a n).1 = s.setLane n { s.lane n with takeMark := true } := by
  cases a with
  | start =>
    left
    simp only [State.actOnLane, State.startLane, h]
    split <;> rfl
  | take =>
    right
    simp only [State.actOnLane, State.takeLane, h, reduceCtorEq, if_false]
  | stopDrain | stopFade | hold | resume =>
    left
    simp only [State.actOnLane, State.stopDrainLane, State.stopFadeLane, State.holdLane,
      State.resumeLane, h]

/-- R19, R124, R129: the clock's share leaves a killed lane frozen. -/
theorem frozen_firing (l : Lane) (n : Fin 4) : KeptByFiring fun s => l.Frozen (s.lane n) where
  clock := fun _ _ h => h
  sched := fun _ _ _ h => h
  raise := fun _ _ h => h
  act := fun s a m h => by
    by_cases hm : n = m
    · subst hm
      rcases State.actOnLane_of_killed h.state a with e | e
      · rwa [e]
      · rw [e, State.lane_setLane_self]
        exact h.setParams rfl
    · obtain ⟨l', e⟩ := s.actOnLane_frame a m
      rwa [e, State.lane_setLane_ne _ _ hm]
  style := fun s m k h => by
    by_cases hm : n = m
    · subst hm
      rw [State.lane_setLane_self]
      exact h.setStyle k
    · rwa [State.lane_setLane_ne _ _ hm]

/-- R8, R19, R89: every share of a field start leaves a killed lane frozen. -/
theorem Lane.Frozen.takeShare {l : Lane} {n : Fin 4} {r : State × FieldWork}
    (h : l.Frozen (r.1.lane n)) (t : FieldTok) : l.Frozen ((State.takeShare r t).1.lane n) := by
  cases t with
  | styles => exact (r.1.lane_transferStyles n).symm ▸ h
  | slot k =>
    obtain ⟨ps, hps, e⟩ := r.1.checkSlot_lane k n
    exact e ▸ h.struck hps
  | lane m =>
    by_cases hm : n = m
    · subst hm
      rcases (r.1.laneStep_stepped n (r.2.lanes.get n)).of_rest (.inr h.state) with e | e
      · exact e ▸ h
      · exact e ▸ h.takeApply
    · exact ((r.1.laneStep_frame m (r.2.lanes.get m)).others n hm) ▸ h
  | clock => exact (frozen_firing l n).accumulate h

/-- Settles O41: every share of the field start leaves a KILLED lane frozen. -/
theorem killedLaneFrozen : Obligations.KilledLaneFrozen := by
  intro s t parity order n hon hk hx
  rw [exec_fieldStart_of_onAir hon] at hx
  obtain ⟨_, _, hf⟩ := State.fieldShares_induct (s := s.quiet.fieldHead parity)
    (P := fun r => (s.lane n).Frozen (r.1.lane n)) order (Lane.Frozen.refl hk)
    fun _ t _ hr => hr.takeShare t
  obtain rfl := next_eq hx
  obtain ⟨h1, h2, h3, h4, h5, h6, h7, h8, h9⟩ := hf
  exact ⟨h1, h2, h3, h4, h5, h6, h7, h8, h9⟩

end Sys2Proof.Machine

/-! ## What a field start leaves as it was (R8, R54, R95, R122, R124, R157, R161, R163) -/

namespace Sys2Proof.Machine

/-! ### A step of a lane's work as what it hands out -/

/-- What a step of a lane's field start work hands out: the lane, the cue-out actions (R34, R44),
LANE_EMPTY (R33), LANE_OFF (R17) and the work carried on. -/
structure LaneTurn where
  lane  : Lane
  cues  : List CueOut
  empty : Bool
  off   : Bool
  work  : LaneWork

/-- R8: the turn in which a lane changes alone. -/
abbrev LaneTurn.plain (l : Lane) (w : LaneWork) : LaneTurn :=
  { lane := l, cues := [], empty := false, off := false, work := w }

/-- R35, R43, R44: the turn of the place step. -/
def State.placeTurn (s : State) (l : Lane) (w : LaneWork) : LaneTurn :=
  if !l.places then .plain l w
  else match l.form.kind with
    | .crawl =>
      let r := s.placeLoop (w.noted + (l.laneWidth : Int)) (l.ring.length - l.placedCount) l
      { lane := r.1, cues := [], empty := r.2, off := false, work := w }
    | .flip =>
      if l.placed.isEmpty then
        let r := s.placePage l.ring.length l
        { lane := r.1, cues := r.2.2.toList, empty := r.2.1, off := false, work := w }
      else .plain l w

/-- R34: the turn of the cue crossing step. -/
def State.crossTurn (s : State) (l : Lane) (w : LaneWork) : LaneTurn :=
  if l.state.works && l.form.kind == .crawl then
    { lane := l.noteEdges, cues := l.crossings s.items, empty := false, off := false, work := w }
  else .plain l w

/-- R38: the turn of the envelope step. -/
def State.envelopeTurn (s : State) (l : Lane) (w : LaneWork) : LaneTurn :=
  if l.state.works then
    .plain { l with placed := l.placed.map fun p => { p with env := p.env.step (s.style p.style) } } w
  else .plain l w

/-- R17: the turn of the last step. -/
def Lane.offTurn (l : Lane) (w : LaneWork) : LaneTurn :=
  if l.fadeEnds then { lane := l.enterOff, cues := [], empty := false, off := true, work := w }
  else .plain l w

/-- R8, R28, R41: the turn of a lane in the next step of its work. -/
def State.turn (s : State) (l : Lane) (w : LaneWork) : LaneTurn :=
  match w.step with
  | 0 => .plain l.takeApply w.next
  | 1 => .plain l.begin { w.next with begun := l.state == .armed }
  | 2 => .plain (l.advance w.next).1 (l.advance w.next).2
  | 3 => .plain (l.rebaseStep w.next).1 (l.rebaseStep w.next).2
  | 4 =>
    let r := l.retireStep s.items w.next
    { lane := r.1, cues := [], empty := r.2, off := false, work := w.next }
  | 5 => s.crossTurn l w.next
  | 6 => s.placeTurn l w.next
  | 7 => s.envelopeTurn l w.next
  | 8 => .plain l.drainCheck w.next
  | 9 => .plain l.fadeStep w.next
  | 10 => l.offTurn w.next
  | _ => .plain l w

/-- What a lane hands out reaches its record, the cue outputs and its two event bits. -/
def State.giveTurn (s : State) (n : Fin 4) (o : LaneTurn) : State :=
  (((s.handCueOuts o.cues).setLane n o.lane).raiseIf o.empty (.laneEmpty n)).raiseIf o.off (.laneOff n)

theorem State.giveTurn_plain (s : State) (n : Fin 4) (l : Lane) (w : LaneWork) :
    s.giveTurn n (.plain l w) = s.setLane n l := rfl

theorem State.giveTurn_keep (s : State) (n : Fin 4) (w : LaneWork) :
    s.giveTurn n (.plain (s.lane n) w) = s :=
  (s.giveTurn_plain n _ w).trans (s.setLane_lane n)

theorem State.crossStep_eq_turn (s : State) (n : Fin 4) (w : LaneWork) :
    (s.crossStep n, w) = (s.giveTurn n (s.crossTurn (s.lane n) w), (s.crossTurn (s.lane n) w).work) := by
  unfold State.crossStep State.crossTurn
  dsimp only
  split
  · rfl
  · rw [State.giveTurn_keep]

theorem State.envelopeStep_eq_turn (s : State) (n : Fin 4) (w : LaneWork) :
    (s.envelopeStep n, w) =
      (s.giveTurn n (s.envelopeTurn (s.lane n) w), (s.envelopeTurn (s.lane n) w).work) := by
  unfold State.envelopeStep State.envelopeTurn
  dsimp only
  split
  · rfl
  · rw [State.giveTurn_keep]

theorem State.offStep_eq_turn (s : State) (n : Fin 4) (w : LaneWork) :
    (s.offStep n, w) = (s.giveTurn n ((s.lane n).offTurn w), ((s.lane n).offTurn w).work) := by
  unfold State.offStep Lane.offTurn
  dsimp only
  split
  · rfl
  · rw [State.giveTurn_keep]

theorem State.placeStep_eq_turn (s : State) (n : Fin 4) (w : LaneWork) :
    (s.placeStep n w, w) = (s.giveTurn n (s.placeTurn (s.lane n) w), (s.placeTurn (s.lane n) w).work) := by
  unfold State.placeStep State.placeTurn
  dsimp only
  cases hp : (s.lane n).places with
  | false => exact congrArg (·, w) (s.giveTurn_keep n w).symm
  | true =>
    cases hk : (s.lane n).form.kind with
    | crawl => rfl
    | flip =>
      cases he : (s.lane n).placed.isEmpty with
      | true => rfl
      | false => exact congrArg (·, w) (s.giveTurn_keep n w).symm

/-- Each step of a lane's work gives the lane its turn. -/
theorem State.laneStep_eq_turn (s : State) (n : Fin 4) (w : LaneWork) :
    s.laneStep n w = (s.giveTurn n (s.turn (s.lane n) w), (s.turn (s.lane n) w).work) := by
  obtain ⟨k, begun, counted, noted⟩ := w
  match k with
  | 0 | 1 | 2 | 3 | 4 | 8 | 9 => rfl
  | 5 => exact s.crossStep_eq_turn n _
  | 6 => exact s.placeStep_eq_turn n _
  | 7 => exact s.envelopeStep_eq_turn n _
  | 10 => exact s.offStep_eq_turn n _
  | k + 11 => exact congrArg (·, _) (s.giveTurn_keep n _).symm

/-! ### Event bits (R157) -/

theorem Event.number_lt (e : Event) : e.number < 19 := by
  cases e <;> simp only [Event.number] <;> omega

/-- R157: a raised event sets its bit and no other. -/
theorem State.getLsbD_raise (s : State) (e : Event) (b : Nat) :
    (s.raise e).rep.events.getLsbD b = (s.rep.events.getLsbD b || decide (b = e.number)) := by
  have hlt := e.number_lt
  have hbit : (e.bit).getLsbD b = decide (b = e.number) := by
    rw [Event.bit, BitVec.natCast_eq_ofNat, BitVec.getLsbD_ofNat, Nat.one_shiftLeft, Nat.testBit_two_pow,
      Bool.eq_iff_iff]
    simp only [Bool.and_eq_true, decide_eq_true_eq]
    omega
  simp only [State.raise, BitVec.getLsbD_or, hbit]

theorem State.getLsbD_raiseIf (s : State) (c : Bool) (e : Event) (b : Nat) :
    (s.raiseIf c e).rep.events.getLsbD b =
      (s.rep.events.getLsbD b || (c && decide (b = e.number))) := by
  cases c
  · simp
  · simpa using s.getLsbD_raise e b

/-- R17, R33: of the event bits a lane's turn sets LANE_EMPTY and LANE_OFF of its lane. -/
theorem State.getLsbD_giveTurn (s : State) (n : Fin 4) (o : LaneTurn) (b : Nat) :
    (s.giveTurn n o).rep.events.getLsbD b =
      (s.rep.events.getLsbD b || (o.empty && decide (b = 2 + n.val)) ||
        (o.off && decide (b = 6 + n.val))) := by
  unfold State.giveTurn
  rw [State.getLsbD_raiseIf, State.getLsbD_raiseIf]
  rfl

/-! ### The frame of a field start -/

/-- A store reads the written record at its number and the old ones elsewhere, wherever the record is not
the default. -/
theorem Store.get_put_of_ne {α : Type} [DecidableEq α] {d v : α} (hv : v ≠ d) (k j : Nat) :
    ∀ m : Store α, Store.get d (Store.put d m k v) j = if j = k then v else Store.get d m j
  | [] => by
    unfold Store.put
    rw [if_neg hv]
    simp only [Store.get, eq_comm]
  | (i, w) :: t => by
    have ih := Store.get_put_of_ne hv k j t
    unfold Store.put
    simp only [if_neg hv]
    split
    · simp only [Store.get, eq_comm]
    · split
      · rename_i hki
        subst hki
        by_cases hjk : j = k
        · subst hjk
          simp [Store.get]
        · simp [Store.get, hjk, Ne.symm hjk]
      · rename_i hki
        by_cases hij : i = j
        · subst hij
          simp [Store.get, Ne.symm hki]
        · simp only [Store.get, hij, if_false, ih]

/-- R54, R56, R58: a check leaves the state or takes the slot's pending value. -/
theorem State.checkSlot_cases (s : State) (k : Nat) :
    s.checkSlot k = s ∨ ∃ v, (s.quote k).pend = some v ∧ s.checkSlot k = s.transfer k v := by
  unfold State.checkSlot
  split
  · exact .inl rfl
  · rename_i v hv
    split
    · exact .inr ⟨v, hv, rfl⟩
    · exact .inl rfl

/-- R56: the quote slots after a transfer. -/
theorem State.quote_transfer (s : State) (k : Nat) (v : QuoteValue) (j : Nat) :
    (s.transfer k v).quote j =
      if j = k then { s.quote k with pend := none, shown := some v } else s.quote j := by
  have hne : ({ s.quote k with pend := none, shown := some v } : QuoteSlot) ≠ QuoteSlot.initial :=
    fun e => nomatch (congrArg QuoteSlot.shown e : some v = none)
  exact Store.get_put_of_ne hne k j s.quotes

/-- What a field start's shares can change at all: lanes, quote slots, clock, schedule, current styles,
cue outputs and event bits. -/
abbrev State.FieldFrame (s t : State) : Prop :=
  t = { s with
    lanes := t.lanes, quotes := t.quotes, clock := t.clock, schedule := t.schedule
    styles := { s.styles with cur := t.styles.cur }
    cue := { s.cue with out0 := t.cue.out0, out1 := t.cue.out1 }
    rep := { s.rep with events := t.rep.events } }

theorem State.FieldFrame.trans {s t u : State} (h : s.FieldFrame t) (k : t.FieldFrame u) :
    s.FieldFrame u := by
  unfold State.FieldFrame at k
  rw [h] at k
  exact k

/-- What a field start's shares leave: all outside their frame, the event bits that are set, the assemblies,
and the slots with nothing pending. -/
structure State.FieldKept (s t : State) : Prop where
  frame  : s.FieldFrame t
  events : ∀ b, s.rep.events.getLsbD b = true → t.rep.events.getLsbD b = true
  asm    : ∀ k, (t.quote k).asm = (s.quote k).asm
  idle   : ∀ k, (s.quote k).pend = none → t.quote k = s.quote k

theorem State.FieldKept.refl (s : State) : s.FieldKept s :=
  ⟨rfl, fun _ h => h, fun _ => rfl, fun _ _ => rfl⟩

theorem State.FieldKept.trans {s t u : State} (h : s.FieldKept t) (k : t.FieldKept u) :
    s.FieldKept u where
  frame := h.frame.trans k.frame
  events := fun b hb => k.events b (h.events b hb)
  asm := fun i => (k.asm i).trans (h.asm i)
  idle := fun i hi => (k.idle i (h.idle i hi ▸ hi)).trans (h.idle i hi)

/-- A change within the frame that leaves the quote slots and clears no event bit. -/
theorem State.FieldKept.of_frame {s t : State} (h : s.FieldFrame t) (hq : t.quotes = s.quotes)
    (he : ∀ b, s.rep.events.getLsbD b = true → t.rep.events.getLsbD b = true) : s.FieldKept t := by
  have hquote : ∀ k, t.quote k = s.quote k := fun k => by unfold State.quote; rw [hq]
  exact ⟨h, he, fun k => by rw [hquote], fun k _ => hquote k⟩

theorem State.FieldKept.setLane (s : State) (n : Fin 4) (l : Lane) : s.FieldKept (s.setLane n l) :=
  .of_frame rfl rfl fun _ h => h

theorem State.FieldKept.raise (s : State) (e : Event) : s.FieldKept (s.raise e) :=
  .of_frame rfl rfl fun b h => by rw [State.getLsbD_raise, h, Bool.true_or]

theorem State.FieldKept.raiseIf (s : State) (c : Bool) (e : Event) : s.FieldKept (s.raiseIf c e) := by
  cases c
  · exact .refl s
  · exact .raise s e

theorem State.FieldKept.handCueOuts (s : State) (as : List CueOut) : s.FieldKept (s.handCueOuts as) := by
  obtain ⟨hin, hline, hlatch⟩ := CueUnit.foldl_apply_frame as s.cue
  refine .of_frame ?_ rfl fun _ h => h
  have hcue : as.foldl CueUnit.apply s.cue = { s.cue with
      out0 := (as.foldl CueUnit.apply s.cue).out0, out1 := (as.foldl CueUnit.apply s.cue).out1 } := by
    dsimp only
    rw [← hin, ← hline, ← hlatch]
  exact congrArg (fun u => { s with cue := u }) hcue

theorem State.FieldKept.laneStep (s : State) (n : Fin 4) (w : LaneWork) :
    s.FieldKept (s.laneStep n w).1 := by
  rw [State.laneStep_eq_turn]
  exact (((State.FieldKept.handCueOuts s _).trans (.setLane _ n _)).trans (.raiseIf _ _ _)).trans
    (.raiseIf _ _ _)

theorem State.FieldKept.transferStyles (s : State) : s.FieldKept s.transferStyles := by
  obtain ⟨cur, e⟩ : ∃ cur, s.transferStyles = { s with styles := { s.styles with cur := cur } } :=
    ⟨_, s.transferStyles_eq⟩
  rw [e]
  exact .of_frame rfl rfl fun _ h => h

/-- R54, R56: a check changes no assembly and no slot but its own, and that one where a value is pending. -/
theorem State.FieldKept.checkSlot (s : State) (k : Nat) : s.FieldKept (s.checkSlot k) := by
  rcases s.checkSlot_cases k with e | ⟨v, hv, e⟩ <;> rw [e]
  · exact .refl s
  · refine ⟨rfl, fun _ h => h, fun j => ?_, fun j hj => ?_⟩
    · rw [State.quote_transfer]
      split
      · rename_i hjk
        rw [hjk]
      · rfl
    · rw [State.quote_transfer, if_neg]
      intro hjk
      rw [hjk, hv] at hj
      cases hj

theorem fieldKept_firing (s : State) : KeptByFiring s.FieldKept where
  clock := fun _ _ h => h.trans (.of_frame rfl rfl fun _ h => h)
  sched := fun _ _ _ h => h.trans (.of_frame rfl rfl fun _ h => h)
  raise := fun t e h => h.trans (.raise t e)
  act := fun t a n h => by
    obtain ⟨l, e⟩ := t.actOnLane_frame a n
    rw [e]
    exact h.trans (.setLane t n l)
  style := fun t n _ h => h.trans (.setLane t n _)

theorem State.FieldKept.takeShare (r : State × FieldWork) (t : FieldTok) :
    r.1.FieldKept (State.takeShare r t).1 := by
  cases t with
  | styles => exact .transferStyles r.1
  | slot k => exact .checkSlot r.1 k
  | lane n => exact .laneStep r.1 n _
  | clock => exact (fieldKept_firing r.1).accumulate (.refl r.1)

theorem State.FieldKept.fieldShares (s : State) (order : List FieldTok) :
    s.FieldKept (s.fieldShares order) := by
  obtain ⟨_, _, hf⟩ := State.fieldShares_induct (P := fun r => s.FieldKept r.1) order
    (State.FieldKept.refl s) fun r t _ hr => hr.trans (.takeShare r t)
  exact hf

/-- Settles O40: every share of the field start keeps to the frame. -/
theorem fieldStartFrame : Obligations.FieldStartFrame := by
  intro s parity order hon
  obtain ⟨hframe, hevents, hasm, hidle⟩ :=
    State.FieldKept.fieldShares (s.quiet.fieldHead parity) order
  refine ⟨_, exec_fieldStart_of_onAir hon parity order, ?_, ?_, ?_, ?_, fun b hb => hevents b hb, hasm,
    hidle, ?_⟩
  · exact congrArg (·.rep.count) hframe
  · exact congrArg (·.rep.taken) hframe
  · exact congrArg (·.parity) hframe
  · exact congrArg (·.cue.lineReg) hframe
  · exact hframe

end Sys2Proof.Machine

/-! ## A field start as a sequence of shares, in every order (R8, R54, R122, R124, R130) -/

namespace Sys2Proof.Machine

/-! ### The sequences of shares that can be taken -/

/-- A share that may come next where `left` says how often each is still to come: the clock's comes where
no lane is amid its eleven steps (R130). -/
def DueOf (left : FieldTok → Nat) (t : FieldTok) : Prop :=
  0 < left t ∧ (t = .clock → ∀ n, left (.lane n) = 11 ∨ left (.lane n) = 0)

/-- What is left once a share has been taken. -/
def lessOf (left : FieldTok → Nat) (t : FieldTok) : FieldTok → Nat :=
  fun u => left u - if u = t then 1 else 0

/-- `ts` holds each share as often as it is left, and the clock's outside every lane's steps. -/
structure Awaits (left : FieldTok → Nat) (ts : List FieldTok) : Prop where
  count : ∀ t, ts.count t = left t
  split : ∀ before after n, ts = before ++ .clock :: after →
    (left (.lane n) = 11 ∧ .lane n ∉ before) ∨ .lane n ∉ after

theorem awaits_nil {left : FieldTok → Nat} : Awaits left [] ↔ ∀ t, left t = 0 := by
  constructor
  · exact fun h t => (h.count t).symm
  · exact fun h => ⟨fun t => (h t).symm, fun before after n e => by simp at e⟩

theorem count_cons_eq_iff {left : FieldTok → Nat} {t : FieldTok} {ts : List FieldTok}
    (h : 0 < left t) :
    (∀ u, (t :: ts).count u = left u) ↔ ∀ u, ts.count u = lessOf left t u := by
  refine forall_congr' fun u => ?_
  rw [List.count_cons, lessOf]
  by_cases hu : u = t
  · subst hu
    simp
    omega
  · simp [hu, Ne.symm hu]

/-- A sequence is awaited when its first share may come next and the others are awaited then. -/
theorem awaits_cons {left : FieldTok → Nat} (hlane : ∀ n, left (.lane n) ≤ 11)
    {t : FieldTok} {ts : List FieldTok} :
    Awaits left (t :: ts) ↔ DueOf left t ∧ Awaits (lessOf left t) ts := by
  constructor
  · intro h
    have hpos : 0 < left t := by rw [← h.count t]; simp
    have hcount := (count_cons_eq_iff hpos).mp h.count
    refine ⟨⟨hpos, fun ht n => ?_⟩, hcount, fun before after n e => ?_⟩
    · subst ht
      rcases h.split [] ts n rfl with ⟨h11, _⟩ | hn
      · exact .inl h11
      · have h0 := hcount (.lane n)
        rw [List.count_eq_zero_of_not_mem hn] at h0
        simp only [lessOf, reduceCtorEq, if_false, Nat.sub_zero] at h0
        exact .inr h0.symm
    · rcases h.split (t :: before) after n (by rw [e, List.cons_append]) with ⟨h11, hb⟩ | hn
      · obtain ⟨hne, hb⟩ := List.ne_and_not_mem_of_not_mem_cons hb
        exact .inl ⟨by simp [lessOf, hne, h11], hb⟩
      · exact .inr hn
  · rintro ⟨⟨hpos, hdue⟩, h⟩
    refine ⟨(count_cons_eq_iff hpos).mpr h.count, fun before after n e => ?_⟩
    cases before with
    | nil =>
      obtain ⟨rfl, rfl⟩ := List.cons.inj e
      rcases hdue rfl n with h11 | h0
      · exact .inl ⟨h11, List.not_mem_nil⟩
      · refine .inr (List.count_eq_zero.mp ?_)
        rw [h.count, lessOf, h0, Nat.zero_sub]
    | cons b before =>
      obtain ⟨rfl, rfl⟩ := List.cons.inj e
      rcases h.split before after n rfl with ⟨h11, hb⟩ | hn
      · have hne : FieldTok.lane n ≠ t := by
          rintro rfl
          have := hlane n
          simp only [lessOf, if_true] at h11
          omega
        refine .inl ⟨?_, List.not_mem_cons_of_ne_of_not_mem hne hb⟩
        simpa [lessOf, hne] using h11
      · exact .inr hn

/-! ### What a field start has left -/

/-- How often each share of a field start is still to come. -/
def FieldWork.left (w : FieldWork) : FieldTok → Nat
  | .styles => (!w.stylesDone).toNat
  | .slot k => w.slotsLeft.count k
  | .lane n => 11 - (w.lanes.get n).step
  | .clock => (!w.clockDone).toNat

theorem FieldWork.left_lane_le (w : FieldWork) (n : Fin 4) : w.left (.lane n) ≤ 11 := Nat.sub_le _ _

theorem FieldWork.due_iff (w : FieldWork) (t : FieldTok) : w.Due t ↔ DueOf w.left t := by
  cases t with
  | styles =>
    simp only [FieldWork.Due, DueOf, FieldWork.left]
    cases w.stylesDone <;> simp
  | slot k => simp [FieldWork.Due, DueOf, FieldWork.left, List.count_pos_iff]
  | lane n => simp [FieldWork.Due, DueOf, FieldWork.left]
  | clock =>
    have hstep : ∀ k : Nat, (k = 0 ∨ 11 ≤ k) ↔ (11 - k = 11 ∨ 11 - k = 0) := fun k => by omega
    simp only [FieldWork.Due, DueOf, FieldWork.left, hstep, true_implies]
    cases w.clockDone <;> simp

theorem FieldWork.complete_iff (w : FieldWork) : w.Complete ↔ ∀ t, w.left t = 0 := by
  constructor
  · rintro ⟨hs, hk, hl, hc⟩ (_ | k | n | _)
    · simp [FieldWork.left, hs]
    · simp [FieldWork.left, hk]
    · exact Nat.sub_eq_zero_of_le (hl n)
    · simp [FieldWork.left, hc]
  · intro h
    refine ⟨?_, List.eq_nil_iff_forall_not_mem.mpr fun k => ?_, fun n => ?_, ?_⟩
    · simpa [FieldWork.left] using h .styles
    · exact List.count_eq_zero.mp (h (.slot k))
    · exact Nat.le_of_sub_eq_zero (h (.lane n))
    · simpa [FieldWork.left] using h .clock

/-- A share taken is one less to come. -/
theorem State.left_takeShare (r : State × FieldWork) {t : FieldTok} (h : r.2.Due t) :
    (State.takeShare r t).2.left = lessOf r.2.left t := by
  funext u
  cases u with
  | lane n =>
    simp only [FieldWork.left, lessOf, State.takeShare_step r h, eq_comm (a := t)]
    omega
  | slot k =>
    cases t with
    | slot j =>
      simp [State.takeShare, FieldWork.left, lessOf, List.count_erase, eq_comm (a := j) (b := k)]
    | styles | lane | clock => simp [State.takeShare, State.laneShare, FieldWork.left, lessOf]
  | styles =>
    cases t with
    | styles => simp [State.takeShare, FieldWork.left, lessOf, show r.2.stylesDone = false from h]
    | slot | lane | clock => simp [State.takeShare, State.laneShare, FieldWork.left, lessOf]
  | clock =>
    cases t with
    | clock =>
      obtain ⟨hc, _⟩ := h
      simp [State.takeShare, FieldWork.left, lessOf, hc]
    | slot | lane | styles => simp [State.takeShare, State.laneShare, FieldWork.left, lessOf]

/-- Every sequence of shares that leaves none was awaited. -/
theorem Shares.awaits {r r' : State × FieldWork} {ts : List FieldTok} (h : Shares r ts r')
    (hc : r'.2.Complete) : Awaits r.2.left ts := by
  induction h with
  | nil r => exact awaits_nil.mpr ((FieldWork.complete_iff _).mp hc)
  | cons hd _ ih =>
    refine (awaits_cons (FieldWork.left_lane_le _)).mpr
      ⟨(FieldWork.due_iff _ _).mp hd, ?_⟩
    rw [← State.left_takeShare _ hd]
    exact ih hc

/-- Every awaited sequence of shares can be taken and leaves none. -/
theorem Awaits.shares : ∀ {ts : List FieldTok} {r : State × FieldWork}, Awaits r.2.left ts →
    ∃ r', Shares r ts r' ∧ r'.2.Complete
  | [], r, h => ⟨r, .nil r, (FieldWork.complete_iff _).mpr (awaits_nil.mp h)⟩
  | t :: ts, r, h => by
    obtain ⟨hdue, h⟩ := (awaits_cons (FieldWork.left_lane_le _)).mp h
    have hd := (FieldWork.due_iff _ _).mpr hdue
    rw [← State.left_takeShare r hd] at h
    obtain ⟨r', hs, hc⟩ := Awaits.shares h
    exact ⟨r', .cons hd hs, hc⟩

/-! ### A sequence of shares that arrives is taken -/

theorem State.laneFinish_of_past {s : State} {w : FieldWork} {n : Fin 4}
    (h : 11 ≤ (w.lanes.get n).step) : s.laneFinish w n = (s, w) := by
  have hrest : ∀ fuel, State.laneRest fuel s n (w.lanes.get n) = (s, w.lanes.get n) := fun fuel => by
    induction fuel with
    | zero => rfl
    | succ fuel ih =>
      rw [State.laneRest, State.laneStep_past s n h]
      exact ih
  simp only [State.laneFinish, hrest, Four.set_get]

/-- R130: where no lane is amid its work there is none to finish. -/
theorem State.finishStarted_of_rest {s : State} {w : FieldWork}
    (h : ∀ n, (w.lanes.get n).step = 0 ∨ 11 ≤ (w.lanes.get n).step) : s.finishStarted w = (s, w) :=
  List.foldlRecOn (motive := fun r => r = (s, w)) fours _ rfl fun r hr n _ => by
    subst hr
    dsimp only
    split
    · rfl
    · rename_i h0
      exact State.laneFinish_of_past ((h n).resolve_left h0)

theorem State.fieldTok_of_due {r : State × FieldWork} {t : FieldTok} (h : r.2.Due t) :
    State.fieldTok r t = State.takeShare r t := by
  cases t with
  | styles =>
    simp only [State.fieldTok, State.stylesShare, State.takeShare]
    rw [if_neg (by rw [show r.2.stylesDone = false from h]; exact Bool.false_ne_true)]
  | slot k =>
    simp only [State.fieldTok, State.slotShare, State.takeShare]
    rw [if_pos (List.contains_iff_mem.mpr h)]
  | lane n => rfl
  | clock =>
    obtain ⟨hc, hl⟩ := h
    simp only [State.fieldTok, State.clockShare, State.takeShare, State.finishStarted_of_rest hl, hc,
      Bool.false_eq_true, if_false]

theorem Shares.foldl_fieldTok {r r' : State × FieldWork} {ts : List FieldTok} (h : Shares r ts r') :
    ts.foldl State.fieldTok r = r' := by
  induction h with
  | nil => rfl
  | cons hd _ ih => rw [List.foldl_cons, State.fieldTok_of_due hd, ih]

/-- After all shares nothing is left to do. -/
theorem State.fieldRest_of_complete {r : State × FieldWork} (h : r.2.Complete) :
    State.fieldRest r = r := by
  obtain ⟨hs, hk, hl, hc⟩ := h
  have hlanes : fours.foldl (fun q n => q.1.laneFinish q.2 n) r = r :=
    List.foldlRecOn (motive := fun q => q = r) fours _ rfl fun q hq n _ => by
      subst hq
      exact State.laneFinish_of_past (hl n)
  simp only [State.fieldRest, State.stylesShare, hs, if_true, hk, List.foldl_nil, Prod.mk.eta, hlanes,
    State.clockShare, hc]

/-! ### Shares on the state and the lanes' work alone -/

/-- A share as it acts on the state and on what the lanes carry on. -/
def State.plainShare (x : State × Four LaneWork) : FieldTok → State × Four LaneWork
  | .styles => (x.1.transferStyles, x.2)
  | .slot k => (x.1.checkSlot k, x.2)
  | .lane n => ((x.1.laneStep n (x.2.get n)).1, x.2.set n (x.1.laneStep n (x.2.get n)).2)
  | .clock => (x.1.accumulate, x.2)

theorem Shares.foldl_plainShare {r r' : State × FieldWork} {ts : List FieldTok} (h : Shares r ts r') :
    ts.foldl State.plainShare (r.1, r.2.lanes) = (r'.1, r'.2.lanes) := by
  induction h with
  | nil => rfl
  | @cons r r' t ts hd _ ih =>
    rw [List.foldl_cons, ← ih]
    cases t <;> rfl

/-- R54: in a store in canonical form each slot with a pending value is listed once. -/
theorem count_pendingSlots {s : State} (h : Store.wf QuoteSlot.initial s.quotes = true) (k : Nat) :
    s.pendingSlots.count k = if (s.quote k).pend = none then 0 else 1 := by
  have hgen : ∀ (m : Store QuoteSlot) (lo : Option Nat), Store.wfAbove QuoteSlot.initial lo m = true →
      ((m.filter fun e => e.2.pend.isSome).map Prod.fst).count k =
        if (Store.get QuoteSlot.initial m k).pend = none then 0 else 1 := by
    intro m
    induction m with
    | nil => exact fun _ _ => rfl
    | cons e m ih =>
      intro lo hwf
      obtain ⟨i, q⟩ := e
      simp only [Store.wfAbove, Bool.and_eq_true] at hwf
      obtain ⟨_, hwf⟩ := hwf
      have ih := ih _ hwf
      by_cases hik : i = k
      · subst hik
        rw [Store.get_of_lt hwf (Nat.le_refl _)] at ih
        cases hq : q.pend <;> simp_all [Store.get, QuoteSlot.initial]
      · cases hq : q.pend <;> simp_all [Store.get]
  exact hgen _ none h

/-! ### What is driven is not read by the clock's share (R124) -/

theorem State.actOnLane_quiet (s : State) (a : LaneAction) (n : Fin 4) :
    s.quiet.actOnLane a n = ((s.actOnLane a n).1.quiet, (s.actOnLane a n).2) := by
  have hl : s.quiet.lane n = s.lane n := rfl
  cases a with
  | start =>
    have hc : s.quiet.cue = s.cue := rfl
    have ho : ∀ f, s.quiet.overlaps n f = s.overlaps n f := fun _ => rfl
    simp only [State.actOnLane, State.startLane, hl, hc, ho]
    split
    · rfl
    · cases (s.lane n).state with
      | off =>
        dsimp only
        split
        · rfl
        · split <;> rfl
      | armed | running | held | draining | fadingOut | killed => rfl
  | take =>
    simp only [State.actOnLane, State.takeLane, hl]
    split <;> rfl
  | stopDrain | stopFade | hold | resume =>
    simp only [State.actOnLane, State.stopDrainLane, State.stopFadeLane, State.holdLane,
      State.resumeLane, hl]
    cases (s.lane n).state <;> rfl

theorem State.overLanes_quiet (a : LaneAction) : ∀ (ns : List (Fin 4)) (s : State),
    State.overLanes (fun s n => s.actOnLane a n) s.quiet ns =
      ((State.overLanes (fun s n => s.actOnLane a n) s ns).1.quiet,
        (State.overLanes (fun s n => s.actOnLane a n) s ns).2)
  | [], _ => rfl
  | n :: ns, s => by
    simp only [State.overLanes, State.actOnLane_quiet, State.overLanes_quiet a ns]

theorem State.raiseIf_quiet (s : State) (c : Bool) (e : Event) :
    s.quiet.raiseIf c e = (s.raiseIf c e).quiet := by
  cases c <;> rfl

theorem State.foldl_quiet {α : Type} {f : State → α → State}
    (hf : ∀ s a, f s.quiet a = (f s a).quiet) (as : List α) (s : State) :
    as.foldl f s.quiet = (as.foldl f s).quiet := by
  induction as generalizing s with
  | nil => rfl
  | cons a as ih => rw [List.foldl_cons, List.foldl_cons, hf, ih]

theorem State.fireEntry_quiet (s : State) (e : SchedEntry) :
    s.quiet.fireEntry e = (s.fireEntry e).quiet := by
  unfold State.fireEntry
  split
  · simp only [State.fireOnLanes, State.overLanes_quiet, State.raiseIf_quiet]
  · exact State.foldl_quiet (fun _ _ => rfl) _ s

theorem State.fireIfDue_quiet (s : State) (i : Nat) : s.quiet.fireIfDue i = (s.fireIfDue i).quiet := by
  have hs : s.quiet.schedEntry i = s.schedEntry i := rfl
  have hc : s.quiet.clock = s.clock := rfl
  simp only [State.fireIfDue, hs, hc]
  split
  · split
    · exact State.fireEntry_quiet s _
    · exact State.fireEntry_quiet (s.setSchedEntry i _) _
  · rfl

theorem State.accumulate_quiet (s : State) : s.quiet.accumulate = s.accumulate.quiet := by
  have hr : s.quiet.conf = s.conf := rfl
  have hc : s.quiet.clock = s.clock := rfl
  have htick : ∀ t : State, t.quiet.fireSchedule = t.fireSchedule.quiet := fun t => by
    unfold State.fireSchedule
    rw [State.foldl_quiet State.fireIfDue_quiet]
    exact State.raiseIf_quiet _ _ _
  unfold State.accumulate
  rw [hr]
  cases s.conf.rate with
  | none => rfl
  | some r =>
    dsimp only
    rw [hc]
    split
    · exact htick { s with clock := _ }
    · rfl

end Sys2Proof.Machine

/-! ## A lane's field start work by itself (R8, R54, R122, R124) -/

namespace Sys2Proof.Machine

/-! ### What a lane's work reads -/

/-- The stores and the time of day, all that a lane's field start work reads beside its lane. -/
structure State.SameSources (s t : State) : Prop where
  items    : t.items = s.items
  segments : t.segments = s.segments
  fonts    : t.fonts = s.fonts
  styles   : t.styles = s.styles
  quotes   : t.quotes = s.quotes
  time     : t.clock.time = s.clock.time

theorem State.SameSources.refl (s : State) : s.SameSources s := ⟨rfl, rfl, rfl, rfl, rfl, rfl⟩

theorem State.SameSources.trans {s t u : State} (h : s.SameSources t) (k : t.SameSources u) :
    s.SameSources u :=
  ⟨k.items.trans h.items, k.segments.trans h.segments, k.fonts.trans h.fonts,
    k.styles.trans h.styles, k.quotes.trans h.quotes, k.time.trans h.time⟩

theorem State.SameSources.laneStep (s : State) (n : Fin 4) (w : LaneWork) :
    s.SameSources (s.laneStep n w).1 := by
  have h := s.laneStep_frame n w
  exact ⟨h.items, h.segments, h.fonts, h.styles, h.quotes, congrArg Clock.time h.clock⟩

section
variable {s t : State} (h : s.SameSources t)
include h

theorem State.SameSources.item : t.item = s.item := by
  funext i
  rw [State.item, h.items, State.item]

theorem State.SameSources.chain : ∀ fuel k : Nat, t.chain fuel k = s.chain fuel k
  | 0, _ => rfl
  | fuel + 1, k => by
    have hseg : t.segment k = s.segment k := by simp only [State.segment, h.segments]
    simp only [State.chain, hseg]
    split
    · rfl
    · rw [State.SameSources.chain fuel]

/-- R114: the text of a chain. -/
theorem State.SameSources.chainText (head : Nat) : t.chainText head = s.chainText head := by
  simp only [State.chainText, State.textSegments, h.chain, State.segment, h.segments]

/-- R36: the skipped sources. -/
theorem State.SameSources.skips : t.skips = s.skips := by
  funext it
  simp only [State.skips, h.chainText, State.quote, h.quotes]

/-- R37, R66: the widths. -/
theorem State.SameSources.sourceWidth (k : Style) (src : ItemSource) :
    t.sourceWidth k src = s.sourceWidth k src := by
  simp only [State.sourceWidth, State.textWidth, State.quoteWidth, State.clockWidth, State.fontOf,
    h.chainText, h.fonts, h.time, State.quote, h.quotes]

theorem State.SameSources.placeAt : t.placeAt = s.placeAt := by
  funext l it start
  simp only [State.placeAt, h.sourceWidth, State.style, h.styles]

/-- R35: the place step of a CRAWL lane. -/
theorem State.SameSources.placeLoop (floor : Int) : ∀ (u : Nat) (l : Lane),
    t.placeLoop floor u l = s.placeLoop floor u l
  | 0, _ => rfl
  | u + 1, l => by
    have hrec : t.placeLoop floor u = s.placeLoop floor u :=
      funext (State.SameSources.placeLoop floor u)
    rw [State.placeLoop, State.placeLoop, h.item, h.skips, h.placeAt, hrec]

/-- R43: the place step of a FLIP lane. -/
theorem State.SameSources.placePage : ∀ (u : Nat) (l : Lane), t.placePage u l = s.placePage u l
  | 0, _ => rfl
  | u + 1, l => by
    have hrec : t.placePage u = s.placePage u := funext (State.SameSources.placePage u)
    rw [State.placePage, State.placePage, h.item, h.skips, h.placeAt, hrec]

/-- A lane's turn is by the lane, its work and what it reads. -/
theorem State.SameSources.turn (l : Lane) (w : LaneWork) : t.turn l w = s.turn l w := by
  simp only [State.turn, State.placeTurn, State.crossTurn, State.envelopeTurn, h.items, h.placeLoop,
    h.placePage, State.style, h.styles]

end

/-! ### Shares that leave the lanes' sources -/

/-- A store in canonical form is what it was after a record is written as it stands. -/
theorem Store.put_get_self {α : Type} [DecidableEq α] {d : α} (k : Nat) :
    ∀ {m : Store α} {lo : Option Nat}, Store.wfAbove d lo m = true →
      Store.put d m k (Store.get d m k) = m
  | [], _, _ => by simp [Store.put, Store.get]
  | (i, v) :: m, lo, h => by
    simp only [Store.wfAbove, Bool.and_eq_true, decide_eq_true_eq] at h
    obtain ⟨⟨_, hv⟩, hm⟩ := h
    have ih := Store.put_get_self k hm
    rcases Nat.lt_trichotomy k i with hlt | heq | hgt
    · have hd : Store.get d m k = d := Store.get_of_lt hm (Nat.le_of_lt hlt)
      simp [Store.put, Store.get, hlt, Nat.ne_of_gt hlt, hd]
    · subst heq
      simp [Store.put, Store.get, hv]
    · simp [Store.put, Store.get, Nat.ne_of_lt hgt, Nat.ne_of_gt hgt, Nat.not_lt_of_gt hgt, ih]

/-- R122: with nothing pending the transfer of the styles changes nothing. -/
theorem State.transferStyles_of_settled {s : State} (hwf : Store.wf Style.builtIn s.styles.cur = true)
    (h : ∀ k, k < 32 → s.pendingStyle k = s.style k) : s.transferStyles = s := by
  refine List.foldlRecOn (motive := fun t => t = s) _ State.transferStyle rfl fun t ht k hk => ?_
  subst ht
  have hkeep : ∀ u, (t.style k).transferred (t.pendingStyle k) u = t.style k := fun u => by
    rw [h k (List.mem_range.mp hk)]
    unfold Style.transferred
    cases u <;> rfl
  have hput : Store.put Style.builtIn t.styles.cur k (t.style k) = t.styles.cur :=
    Store.put_get_self k hwf
  unfold State.transferStyle
  rw [hkeep, hput]

/-- R54: with nothing pending in the slots a check changes nothing. -/
theorem State.checkSlot_of_settled {s : State} (h : ∀ e ∈ s.quotes, e.2.pend = none) (k : Nat) :
    s.checkSlot k = s := by
  have hget : ∀ m : Store QuoteSlot, (∀ e ∈ m, e.2.pend = none) →
      (Store.get QuoteSlot.initial m k).pend = none := by
    intro m
    induction m with
    | nil => exact fun _ => rfl
    | cons e m ih =>
      intro hm
      obtain ⟨he, hm⟩ := List.forall_mem_cons.mp hm
      unfold Store.get
      split
      · exact he
      · exact ih hm
  rcases s.checkSlot_cases k with e | ⟨v, hv, _⟩
  · exact e
  · rw [State.quote, hget _ h] at hv
    cases hv

/-- R124: an accumulation below N. -/
theorem State.accumulate_of_below {s : State} {r : FieldRate} (hr : s.conf.rate = some r)
    (h : s.clock.acc + r.d < r.n) :
    s.accumulate = { s with clock := { s.clock with acc := s.clock.acc + r.d } } := by
  unfold State.accumulate
  rw [hr]
  exact if_neg (Nat.not_le_of_lt h)

theorem State.accumulate_acc {s : State} (h : ∀ r ∈ s.conf.rate, s.clock.acc + r.d < r.n) :
    ∃ acc, s.accumulate = { s with clock := { s.clock with acc := acc } } := by
  cases hr : s.conf.rate with
  | none =>
    refine ⟨s.clock.acc, ?_⟩
    unfold State.accumulate
    rw [hr]
  | some r => exact ⟨_, State.accumulate_of_below hr (h r hr)⟩

/-! ### One lane's work, alone and among the shares -/

/-- R8: the first `k` steps of lane `n`'s work, one straight after another. -/
def State.laneRun (s : State) (n : Fin 4) (k : Nat) : State × LaneWork :=
  (List.range k).foldl (fun x _ => x.1.laneStep n x.2) (s, LaneWork.initial)

theorem State.laneRun_succ (s : State) (n : Fin 4) (k : Nat) :
    s.laneRun n (k + 1) = (s.laneRun n k).1.laneStep n (s.laneRun n k).2 := by
  simp only [State.laneRun, List.range_succ, List.foldl_append, List.foldl_cons, List.foldl_nil]

theorem State.laneRun_step (s : State) (n : Fin 4) : ∀ {k : Nat}, k ≤ 11 → (s.laneRun n k).2.step = k
  | 0, _ => rfl
  | k + 1, h => by
    have ih := State.laneRun_step s n (Nat.le_of_succ_le h)
    rw [State.laneRun_succ, State.laneStep_step _ n (by omega), ih]

theorem State.SameSources.laneRun (s : State) (n : Fin 4) : ∀ k, s.SameSources (s.laneRun n k).1
  | 0 => .refl s
  | k + 1 => by
    rw [State.laneRun_succ]
    exact (State.SameSources.laneRun s n k).trans (.laneStep _ _ _)

/-- Lane `n` and its two event bits are the same in both states. -/
structure State.SameLane (n : Fin 4) (s t : State) : Prop where
  lane  : t.lane n = s.lane n
  empty : t.rep.events.getLsbD (2 + n.val) = s.rep.events.getLsbD (2 + n.val)
  off   : t.rep.events.getLsbD (6 + n.val) = s.rep.events.getLsbD (6 + n.val)

/-- One turn in two states that agree on the lane. -/
theorem State.SameLane.giveTurn {n : Fin 4} {s t : State} (h : State.SameLane n s t) (o : LaneTurn) :
    State.SameLane n (s.giveTurn n o) (t.giveTurn n o) where
  lane := by simp only [State.giveTurn, State.lane_raiseIf, State.lane_setLane_self]
  empty := by rw [State.getLsbD_giveTurn, State.getLsbD_giveTurn, h.empty]
  off := by rw [State.getLsbD_giveTurn, State.getLsbD_giveTurn, h.off]

/-- A turn of another lane. -/
theorem State.SameLane.giveTurn_ne {n m : Fin 4} (hmn : n ≠ m) (s : State) (o : LaneTurn) :
    State.SameLane n s (s.giveTurn m o) where
  lane := by
    simp only [State.giveTurn, State.lane_raiseIf, State.lane_setLane_ne _ _ hmn]
    rfl
  empty := by
    have hne : n.val ≠ m.val := Fin.val_ne_of_ne hmn
    have hfar : 2 + n.val ≠ 6 + m.val := by omega
    simp [State.getLsbD_giveTurn, hne, hfar]
  off := by
    have hne : n.val ≠ m.val := Fin.val_ne_of_ne hmn
    have hfar : 6 + n.val ≠ 2 + m.val := by omega
    simp [State.getLsbD_giveTurn, hne, hfar]

theorem State.SameLane.trans {n : Fin 4} {s t u : State} (h : State.SameLane n s t)
    (k : State.SameLane n t u) : State.SameLane n s u :=
  ⟨k.lane.trans h.lane, k.empty.trans h.empty, k.off.trans h.off⟩

/-- Amid a field start's shares lane `n` stands as `k` steps of its own work leave it. -/
structure State.AloneAt (s : State) (n : Fin 4) (r : State × FieldWork) (k : Nat) : Prop where
  le      : k ≤ 11
  lane    : State.SameLane n (s.laneRun n k).1 r.1
  work    : r.2.lanes.get n = (s.laneRun n k).2

/-- Amid a field start's shares nothing that the lanes' work reads has changed, nor the clock before its
share. -/
structure State.Settled (s : State) (r : State × FieldWork) : Prop where
  sources : s.SameSources r.1
  conf    : r.1.conf = s.conf
  clock   : r.2.clockDone = false → r.1.clock = s.clock

/-- R8: the next step of the lane's own work. -/
theorem State.AloneAt.laneShare {s : State} {n : Fin 4} {r : State × FieldWork} {k : Nat}
    (h : s.AloneAt n r k) (hs : s.SameSources r.1) (hd : r.2.Due (.lane n)) :
    s.AloneAt n (State.takeShare r (.lane n)) (k + 1) := by
  have hstep : (r.2.lanes.get n).step < 11 := hd
  rw [h.work, State.laneRun_step s n h.le] at hstep
  have hturn : r.1.turn (r.1.lane n) (r.2.lanes.get n) =
      (s.laneRun n k).1.turn ((s.laneRun n k).1.lane n) (s.laneRun n k).2 := by
    rw [h.work, h.lane.lane, hs.turn, (State.SameSources.laneRun s n k).turn]
  refine ⟨hstep, ?_, ?_⟩
  · simp only [State.takeShare, State.laneShare, State.laneRun_succ, State.laneStep_eq_turn, hturn]
    exact h.lane.giveTurn _
  · simp only [State.takeShare, State.laneShare, State.laneRun_succ, State.laneStep_eq_turn, hturn,
      Four.get_set_self]

/-- What leaves the lane, its event bits and its work leaves it where it stands. -/
theorem State.AloneAt.of_same {s : State} {n : Fin 4} {r r' : State × FieldWork} {k : Nat}
    (h : s.AloneAt n r k) (hl : State.SameLane n r.1 r'.1)
    (hw : r'.2.lanes.get n = r.2.lanes.get n) : s.AloneAt n r' k :=
  ⟨h.le, h.lane.trans hl, hw.trans h.work⟩

/-- Where nothing is pending and the clock does not tick, each share leaves lane `n` where it stands or
takes the next step of its work. -/
theorem State.Settled.takeShare {s : State} {n : Fin 4} {r : State × FieldWork} {t : FieldTok}
    (hquotes : ∀ e ∈ s.quotes, e.2.pend = none) (hwf : Store.wf Style.builtIn s.styles.cur = true)
    (hstyles : ∀ k, k < 32 → s.pendingStyle k = s.style k)
    (hrate : ∀ f ∈ s.conf.rate, s.clock.acc + f.d < f.n) (hd : r.2.Due t) (h : s.Settled r)
    (ha : ∃ k, s.AloneAt n r k) :
    s.Settled (State.takeShare r t) ∧ ∃ k, s.AloneAt n (State.takeShare r t) k := by
  obtain ⟨hsrc, hconf, hclock⟩ := h
  obtain ⟨k, ha⟩ := ha
  cases t with
  | styles =>
    have e : r.1.transferStyles = r.1 := by
      refine State.transferStyles_of_settled (hsrc.styles ▸ hwf) fun k hk => ?_
      simpa only [State.pendingStyle, State.style, hsrc.styles] using hstyles k hk
    simp only [State.takeShare, e]
    exact ⟨⟨hsrc, hconf, hclock⟩, k, ha.le, ha.lane, ha.work⟩
  | slot j =>
    have e : r.1.checkSlot j = r.1 := State.checkSlot_of_settled (hsrc.quotes ▸ hquotes) j
    simp only [State.takeShare, e]
    exact ⟨⟨hsrc, hconf, hclock⟩, k, ha.le, ha.lane, ha.work⟩
  | lane m =>
    have hframe := r.1.laneStep_frame m (r.2.lanes.get m)
    refine ⟨⟨hsrc.trans (.laneStep _ _ _), hframe.conf.trans hconf,
      fun hc => hframe.clock.trans (hclock hc)⟩, ?_⟩
    by_cases hmn : n = m
    · subst hmn
      exact ⟨k + 1, ha.laneShare hsrc hd⟩
    · refine ⟨k, ha.of_same ?_ (Four.get_set_ne _ _ hmn)⟩
      simp only [State.takeShare, State.laneShare, State.laneStep_eq_turn]
      exact .giveTurn_ne hmn _ _
  | clock =>
    obtain ⟨hc, _⟩ := hd
    obtain ⟨acc, e⟩ := State.accumulate_acc (s := r.1) (by rw [hconf, hclock hc]; exact hrate)
    simp only [State.takeShare, e]
    obtain ⟨h1, h2, h3, h4, h5, h6⟩ := hsrc
    obtain ⟨hl, he, ho⟩ := ha.lane
    exact ⟨⟨⟨h1, h2, h3, h4, h5, h6⟩, hconf, nofun⟩, k, ha.le, ⟨hl, he, ho⟩, ha.work⟩

end Sys2Proof.Machine

/-! ## A field start in ACTIVE, in every order of the shares (notes/assumptions/3.md) -/

namespace Sys2Proof.Machine

/-- R8, R54, R122, R124, R130: the sequences that a field start awaits. -/
theorem awaits_initial_iff {s : State} (h : Store.wf QuoteSlot.initial s.quotes = true)
    (ts : List FieldTok) :
    Awaits (FieldWork.initial s).left ts ↔
      ts.count .styles = 1 ∧ ts.count .clock = 1 ∧
      (∀ k, ts.count (.slot k) = if (s.quote k).pend = none then 0 else 1) ∧
      (∀ n : Fin 4, ts.count (.lane n) = 11) ∧
      ∀ before after n, ts = before ++ .clock :: after → .lane n ∉ before ∨ .lane n ∉ after := by
  have hlane : ∀ n, (FieldWork.initial s).left (.lane n) = 11 := fun n => by
    simp only [FieldWork.left, FieldWork.initial, Four.get_all, LaneWork.initial]
  have hslot : ∀ k, (FieldWork.initial s).left (.slot k) = if (s.quote k).pend = none then 0 else 1 :=
    count_pendingSlots h
  constructor
  · rintro ⟨hcount, hsplit⟩
    refine ⟨hcount .styles, hcount .clock, fun k => (hcount _).trans (hslot k),
      fun n => (hcount _).trans (hlane n), fun before after n e => ?_⟩
    exact (hsplit before after n e).imp_left And.right
  · rintro ⟨hstyles, hclock, hslots, hlanes, hsplit⟩
    refine ⟨fun t => ?_, fun before after n e => ?_⟩
    · cases t with
      | styles => exact hstyles
      | slot k => exact (hslots k).trans (hslot k).symm
      | lane n => exact (hlanes n).trans (hlane n).symm
      | clock => exact hclock
    · exact (hsplit before after n e).imp_left fun hb => ⟨hlane n, hb⟩

/-- A field start is an awaited sequence of shares. -/
theorem State.fieldShares_awaited (s : State) (order : List FieldTok) :
    ∃ ts, Awaits (FieldWork.initial s).left ts ∧
      s.fieldShares order = (ts.foldl State.plainShare (s, Four.all LaneWork.initial)).1 := by
  obtain ⟨r, ⟨ts, hs⟩, hc, e⟩ := s.fieldShares_shares order
  exact ⟨ts, hs.awaits hc, e.trans (congrArg Prod.fst hs.foldl_plainShare).symm⟩

/-- Every awaited sequence of shares is taken where it is the order that arrives. -/
theorem State.fieldShares_of_awaits {s : State} {ts : List FieldTok}
    (h : Awaits (FieldWork.initial s).left ts) :
    s.fieldShares ts = (ts.foldl State.plainShare (s, Four.all LaneWork.initial)).1 := by
  obtain ⟨r, hs, hc⟩ := h.shares (r := (s, FieldWork.initial s))
  unfold State.fieldShares
  rw [hs.foldl_fieldTok, State.fieldRest_of_complete hc]
  exact (congrArg Prod.fst hs.foldl_plainShare).symm

/-- R124: where the sum reaches N an accumulation is the second tick. -/
theorem exec_secondTick_of_due {s : State} {r : FieldRate} (hon : s.OnAir) (hr : s.conf.rate = some r)
    (h : r.n ≤ s.clock.acc + r.d) : exec .secondTick s = .next s.accumulate.quiet := by
  obtain ⟨_, hact⟩ := hon
  have hdue : s.tickDue = true := by
    simp only [State.tickDue, hact, hr, Option.any_some, h, decide_true, beq_self_eq_true,
      Bool.and_self]
  change Host.Outcome.next (ite _ _ _) = _
  rw [if_pos hdue, State.accumulate_quiet]

/-- R8, R19: with nothing pending and no tick due, a field start leaves lane `n` as its own eleven steps
do. -/
theorem State.fieldShares_alone {s : State} {parity : Bool} (order : List FieldTok) (n : Fin 4)
    (hquotes : ∀ e ∈ s.quotes, e.2.pend = none) (hwf : Store.wf Style.builtIn s.styles.cur = true)
    (hstyles : ∀ k, k < 32 → s.pendingStyle k = s.style k)
    (hrate : ∀ r ∈ s.conf.rate, s.clock.acc + r.d < r.n) :
    State.SameLane n (s.laneRun n 11).1 ((s.quiet.fieldHead parity).fieldShares order) := by
  let head := s.quiet.fieldHead parity
  have h0 : s.Settled (head, FieldWork.initial head) :=
    ⟨⟨rfl, rfl, rfl, rfl, rfl, rfl⟩, rfl, fun _ => rfl⟩
  have ha0 : ∃ k, s.AloneAt n (head, FieldWork.initial head) k :=
    ⟨0, Nat.zero_le _, ⟨rfl, rfl, rfl⟩, Four.get_all _ n⟩
  obtain ⟨w, hc, _, k, hle, hlane, hwork⟩ := State.fieldShares_induct
    (P := fun r => s.Settled r ∧ ∃ k, s.AloneAt n r k) order ⟨h0, ha0⟩
    fun r t hd hr => hr.1.takeShare hquotes hwf hstyles hrate hd hr.2
  have hdone := hc.lanes n
  rw [show w.lanes.get n = (s.laneRun n k).2 from hwork, State.laneRun_step s n hle] at hdone
  obtain rfl : k = 11 := by omega
  exact hlane

/-- Settles O38: the shares of a field start in every order, the accumulation of the clock, and a lane's
work by itself. -/
theorem fieldStartLaneWork : Obligations.FieldStartLaneWork := by
  refine ⟨⟨?_, ?_⟩, ?_⟩
  · intro s parity hon hwf head after
    have hafter : ∀ ts, after ts =
        (ts.foldl State.plainShare (s.quiet.fieldHead parity, Four.all LaneWork.initial)).1 := by
      intro ts
      refine congrArg Prod.fst (List.foldl_ext _ _ _ fun x t _ => ?_)
      cases t <;> rfl
    have hwhole := awaits_initial_iff (s := s.quiet.fieldHead parity) hwf
    constructor
    · intro order
      obtain ⟨ts, hts, e⟩ := (s.quiet.fieldHead parity).fieldShares_awaited order
      refine ⟨ts, (hwhole ts).mp hts, ?_⟩
      rw [exec_fieldStart_of_onAir hon, e, hafter]
    · intro ts hts
      rw [exec_fieldStart_of_onAir hon, State.fieldShares_of_awaits ((hwhole ts).mpr hts), hafter]
  · intro s r hon hr
    exact ⟨State.accumulate_of_below hr, exec_secondTick_of_due hon hr⟩
  · intro s parity order n hon hquotes hwf hstyles hrate start done
    have hrun : (s.laneRun n 11).1 = done := rfl
    have halone := State.fieldShares_alone (parity := parity) order n hquotes hwf hstyles hrate
    rw [hrun] at halone
    obtain ⟨hlane, hempty, hoff⟩ := halone
    exact ⟨_, exec_fieldStart_of_onAir hon parity order, hlane, hempty, hoff⟩

end Sys2Proof.Machine

/-! ## What a change of a lane makes of its ring (R5, R16 to R18, R22 to R24, R31 to R36, R129, R139) -/

namespace Sys2Proof.Machine

/-! ### Changes that leave the ring -/

theorem Lane.takeApply_ring (l : Lane) : l.takeApply.ring = l.ring := by
  cases h : l.takeMark
  · rw [Lane.takeApply_of_not h]
  · rw [Lane.takeApply_eq h]

theorem Lane.begin_ring (l : Lane) : l.begin.ring = l.ring := by
  unfold Lane.begin
  split <;> rfl

theorem Lane.advance_ring (l : Lane) (w : LaneWork) : (l.advance w).1.ring = l.ring := by
  unfold Lane.advance
  split
  · rfl
  · split
    · rfl
    · split <;> rfl

theorem Lane.rebaseStep_ring (l : Lane) (w : LaneWork) : (l.rebaseStep w).1.ring = l.ring := by
  obtain ⟨o, _, e⟩ := l.rebase_shift
  rw [Lane.rebaseStep_eq]
  split
  · rw [e]
  · rfl

theorem Lane.drainCheck_ring (l : Lane) : l.drainCheck.ring = l.ring := by
  unfold Lane.drainCheck
  split <;> rfl

theorem Lane.fadeStep_ring (l : Lane) : l.fadeStep.ring = l.ring := by
  unfold Lane.fadeStep
  split <;> rfl

theorem Lane.countPass_ring (l : Lane) : l.countPass.ring = l.ring := by
  unfold Lane.countPass Lane.passLimit
  dsimp only
  split
  · split <;> rfl
  · rfl

theorem Lane.kill_ring (l : Lane) : l.kill.ring = l.ring := by
  unfold Lane.kill
  split <;> rfl

theorem Lane.setStyle_ring (l : Lane) (k : Nat) : (l.setStyle k).ring = l.ring := by
  unfold Lane.setStyle
  split <;> rfl

theorem Lane.offerForm_ring (l : Lane) (f : Form) : (l.offerForm f).ring = l.ring := by
  unfold Lane.offerForm
  split <;> rfl

theorem Lane.offerMotion_ring (l : Lane) (m : Motion) : (l.offerMotion m).ring = l.ring := by
  unfold Lane.offerMotion
  split <;> rfl

theorem Lane.restore_ring (l : Lane) (b : Bool) : (l.restore b).ring = l.ring := by
  unfold Lane.restore
  split <;> rfl

theorem State.setLane_ring (s : State) {n : Fin 4} {l : Lane} (h : l.ring = (s.lane n).ring) (m : Fin 4) :
    ((s.setLane n l).lane m).ring = (s.lane m).ring := by
  by_cases hm : m = n
  · subst hm
    rwa [State.lane_setLane_self]
  · rw [State.lane_setLane_ne s l hm]

/-- R129: no lane action reaches a ring. -/
theorem State.actOnLane_ring (s : State) (a : LaneAction) (n m : Fin 4) :
    ((s.actOnLane a n).1.lane m).ring = (s.lane m).ring := by
  have set : ∀ {l : Lane}, l.ring = (s.lane n).ring →
      ((s.setLane n l).lane m).ring = (s.lane m).ring := fun h => s.setLane_ring h m
  cases a with
  | start =>
    simp only [State.actOnLane, State.startLane]
    split
    · rfl
    · split
      case h_1 =>
        split
        · rfl
        · split
          · rfl
          · exact set rfl
      case h_4 | h_5 => exact set rfl
      all_goals rfl
  | stopDrain =>
    simp only [State.actOnLane, State.stopDrainLane]
    split
    case h_2 | h_3 | h_5 => exact set rfl
    all_goals rfl
  | stopFade =>
    simp only [State.actOnLane, State.stopFadeLane]
    split
    case h_2 | h_3 | h_4 | h_5 => exact set rfl
    all_goals rfl
  | hold =>
    simp only [State.actOnLane, State.holdLane]
    split
    case h_1 | h_2 => exact set rfl
    all_goals rfl
  | resume =>
    simp only [State.actOnLane, State.resumeLane]
    split
    case h_1 => exact set rfl
    all_goals rfl
  | take =>
    simp only [State.actOnLane, State.takeLane]
    split
    · rfl
    · exact set rfl

/-! ### Changes that reorder the ring or take an entry from it -/

/-- What has the entries of a list, or fewer of them, repeats none where the list repeats none. -/
theorem nodup_of_subperm {l l' : List Nat} (h : List.Subperm l l') (hn : l'.Nodup) : l.Nodup := by
  obtain ⟨k, hperm, hsub⟩ := h
  exact hperm.nodup (hn.sublist hsub)

theorem subperm_append_if (i : Nat) (ring : List Nat) (b : Bool) :
    List.Subperm (if b then ring ++ [i] else ring) (i :: ring) := by
  cases b
  · exact (List.sublist_cons_self i ring).subperm
  · exact (List.perm_append_singleton i ring).subperm

/-- R31: the retired head goes to the tail or out of the ring. -/
theorem Lane.retireHead_ring (items : Store Item) (l : Lane) :
    List.Subperm (l.retireHead items).1.ring l.ring := by
  unfold Lane.retireHead
  split
  · rename_i e ring p placed hring _
    rw [hring]
    dsimp only
    split
    · rw [Lane.countPass_ring]
      exact subperm_append_if e ring _
    · exact subperm_append_if e ring _
  · exact .refl _

theorem Lane.retireStep_ring (items : Store Item) (l : Lane) (w : LaneWork) :
    List.Subperm (l.retireStep items w).1.ring l.ring :=
  Lane.retireStep_induct (Q := fun l' => List.Subperm l'.ring l.ring) w (.refl _)
    (fun _ _ l' h => (l'.retireHead_ring items).trans h) fun _ _ => l.retireHead_ring items

/-- R36: a skipped entry goes to the tail or out of the ring. -/
theorem Lane.skipEntry_ring {l : Lane} {e : Nat} (he : l.ring[l.placedCount]? = some e) (it : Item) :
    List.Subperm (l.skipEntry e it).1.ring l.ring := by
  obtain ⟨hlt, rfl⟩ := List.getElem?_eq_some_iff.mp he
  have hperm := (List.getElem_cons_eraseIdx_perm hlt).subperm
  unfold Lane.skipEntry
  dsimp only
  split
  · exact (subperm_append_if _ _ true).trans hperm
  · exact (subperm_append_if _ _ false).trans hperm

theorem State.placeLoop_ring (s : State) (floor : Int) :
    ∀ (u : Nat) (l : Lane), List.Subperm (s.placeLoop floor u l).1.ring l.ring
  | 0, _ => .refl _
  | u + 1, l => by
    unfold State.placeLoop
    split
    · exact .refl _
    · split
      · exact .refl _
      · rename_i e he
        split
        · exact (State.placeLoop_ring s floor u _).trans (Lane.skipEntry_ring he _)
        · split
          · exact .refl _
          · exact State.placeLoop_ring s floor u _

theorem State.placePage_ring (s : State) :
    ∀ (u : Nat) (l : Lane), List.Subperm (s.placePage u l).1.ring l.ring
  | 0, _ => .refl _
  | u + 1, l => by
    unfold State.placePage
    split
    · exact .refl _
    · rename_i e he
      split
      · exact (State.placePage_ring s u _).trans (Lane.skipEntry_ring he _)
      · exact .refl _

/-- R8, R22: a step of a lane's field start work puts nothing into the ring that was not there. -/
theorem Lane.Stepped.ring {s : State} {l l' : Lane} {w : LaneWork} (h : Lane.Stepped s l w l') :
    List.Subperm l'.ring l.ring := by
  have same : ∀ {l' : Lane}, l'.ring = l.ring → List.Subperm l'.ring l.ring := fun e => e ▸ .refl _
  cases h with
  | take => exact same l.takeApply_ring
  | begin => exact same l.begin_ring
  | advance => exact same (l.advance_ring _)
  | rebase => exact same (l.rebaseStep_ring _)
  | retire => exact l.retireStep_ring _ _
  | placeStrip floor u => exact s.placeLoop_ring floor u l
  | placePage u => exact s.placePage_ring u l
  | drain => exact same l.drainCheck_ring
  | fade => exact same l.fadeStep_ring
  | cross | envelope | off | keep => exact same rfl

/-- R24: DEQUEUE takes an entry from the ring or leaves it. -/
theorem Lane.dequeue_ring (l : Lane) (pos : Nat) : List.Subperm (l.dequeue pos).ring l.ring := by
  unfold Lane.dequeue
  split
  · exact .refl _
  · exact (List.eraseIdx_sublist _ _).subperm

/-- R23: ENQUEUE adds its item and nothing else. -/
theorem Lane.enqueue_ring (l : Lane) (i : Nat) (next : Bool) :
    (l.enqueue i next).ring.Perm (i :: l.ring) := by
  unfold Lane.enqueue
  split
  · refine List.perm_middle.trans (.cons i ?_)
    rw [List.take_append_drop]
  · exact List.perm_append_singleton i l.ring

end Sys2Proof.Machine

/-! ## What a command does to the rings and the items -/

namespace Sys2Proof.Machine

/-! ### Changes that bring no entry into a ring and change no item -/

/-- The change leaves the item store and brings no entry into a ring: each ring is reordered or shorter. -/
structure State.RingFrame (s t : State) : Prop where
  items : t.items = s.items
  rings : ∀ n, List.Subperm (t.lane n).ring (s.lane n).ring

theorem State.RingFrame.of_lanes {s t : State} (hi : t.items = s.items) (hl : t.lanes = s.lanes) :
    s.RingFrame t :=
  ⟨hi, fun n => by rw [show t.lane n = s.lane n from congrArg (·.get n) hl]⟩

theorem State.RingFrame.refl (s : State) : s.RingFrame s := .of_lanes rfl rfl

theorem State.RingFrame.trans {s t u : State} (h : s.RingFrame t) (k : t.RingFrame u) : s.RingFrame u :=
  ⟨k.items.trans h.items, fun n => (k.rings n).trans (h.rings n)⟩

/-- Behind a change of neither. -/
theorem State.RingFrame.after {s t u : State} (k : t.RingFrame u) (hi : t.items = s.items)
    (hl : t.lanes = s.lanes) : s.RingFrame u := (State.RingFrame.of_lanes hi hl).trans k

theorem State.RingFrame.setLane (s : State) {n : Fin 4} {l : Lane}
    (h : List.Subperm l.ring (s.lane n).ring) : s.RingFrame (s.setLane n l) := by
  refine ⟨rfl, fun m => ?_⟩
  by_cases hm : m = n
  · subst hm
    rwa [State.lane_setLane_self]
  · rw [State.lane_setLane_ne s l hm]

theorem State.RingFrame.setLane_eq (s : State) {n : Fin 4} {l : Lane} (h : l.ring = (s.lane n).ring) :
    s.RingFrame (s.setLane n l) := .setLane s (h ▸ .refl _)

theorem State.RingFrame.raiseIf (s : State) (c : Bool) (e : Event) : s.RingFrame (s.raiseIf c e) := by
  cases c <;> exact .of_lanes rfl rfl

theorem State.RingFrame.complete (s : State) (e : IntakeEntry) (r : ResultCode) :
    s.RingFrame (s.complete e r) := by
  rw [State.complete_eq]
  exact .of_lanes rfl rfl

theorem State.RingFrame.handOver (s : State) (r : ResultWord) : s.RingFrame (s.handOver r) := by
  rw [State.handOver_eq]
  exact .of_lanes rfl rfl

theorem State.RingFrame.runIf {s : State} {isMine : Nat → Bool} {eff : Effect}
    (heff : ∀ c, s.RingFrame (eff c s.quiet).1) : s.RingFrame (s.runIf isMine eff) :=
  State.runIf_induct (.of_lanes rfl rfl) (fun t e r h => h.trans (.complete t e r)) fun e _ _ =>
    heff e.command

theorem State.RingFrame.ite {s t u : State} {p : Prop} [Decidable p] (ht : s.RingFrame t)
    (hu : s.RingFrame u) : s.RingFrame (if p then t else u) := by
  split
  · exact ht
  · exact hu

/-! ### Lane actions, the clock and a field start -/

theorem State.RingFrame.actOnLane (s : State) (a : LaneAction) (n : Fin 4) :
    s.RingFrame (s.actOnLane a n).1 where
  items := by
    obtain ⟨l, e⟩ := s.actOnLane_frame a n
    rw [e, State.setLane_items]
  rings := fun m => by rw [s.actOnLane_ring a n m]

theorem State.RingFrame.overLanes (s : State) (a : LaneAction) (ns : List (Fin 4)) :
    s.RingFrame (State.overLanes (fun u n => u.actOnLane a n) s ns).1 :=
  State.overLanes_induct (P := s.RingFrame) (fun u n h => h.trans (.actOnLane u a n)) ns s (.refl s)

theorem State.RingFrame.maskEffect (s : State) (a : LaneAction) (c : Command) :
    s.RingFrame (maskEffect a c s).1 := by
  unfold Machine.maskEffect
  split
  · exact .refl s
  · exact .overLanes s a _

theorem ringFrame_firing (s : State) : KeptByFiring s.RingFrame where
  clock := fun _ _ h => h.trans (.of_lanes rfl rfl)
  sched := fun _ _ _ h => h.trans (.of_lanes rfl rfl)
  raise := fun _ _ h => h.trans (.of_lanes rfl rfl)
  act := fun t a n h => h.trans (.actOnLane t a n)
  style := fun t _ k h => h.trans (.setLane_eq t (Lane.setStyle_ring _ k))

theorem State.RingFrame.laneStep (s : State) (n : Fin 4) (w : LaneWork) :
    s.RingFrame (s.laneStep n w).1 where
  items := (s.laneStep_frame n w).items
  rings := fun m => by
    by_cases hm : m = n
    · subst hm
      exact (s.laneStep_stepped m w).ring
    · rw [(s.laneStep_frame n w).others m hm]

theorem State.FieldKept.items {s t : State} (h : s.FieldKept t) : t.items = s.items :=
  have e := congrArg State.items h.frame
  e

/-- R8, R54, R122, R124: each share of a field start. -/
theorem State.RingFrame.takeShare (r : State × FieldWork) (t : FieldTok) :
    r.1.RingFrame (State.takeShare r t).1 := by
  cases t with
  | styles =>
    have h := State.FieldKept.transferStyles r.1
    exact .of_lanes h.items r.1.transferStyles_lanes
  | slot k =>
    have h := State.FieldKept.checkSlot r.1 k
    refine ⟨h.items, fun n => ?_⟩
    obtain ⟨ps, _, e⟩ := r.1.checkSlot_lane k n
    simp only [State.takeShare, e, List.Subperm.refl]
  | lane n => exact .laneStep r.1 n _
  | clock => exact (ringFrame_firing r.1).accumulate (.refl r.1)

theorem State.RingFrame.fieldShares (s : State) (order : List FieldTok) :
    s.RingFrame (s.fieldShares order) := by
  obtain ⟨_, _, hf⟩ := State.fieldShares_induct (P := fun r => s.RingFrame r.1) order (.refl s)
    fun r t _ hr => hr.trans (.takeShare r t)
  exact hf

/-- R132, R133: the sampling of a cue input. -/
theorem State.RingFrame.sampleCue (s : State) (n : Fin 4) : s.RingFrame (s.sampleCue n) := by
  unfold State.sampleCue
  dsimp only
  split
  · unfold State.fireCue
    split
    · exact .of_lanes rfl rfl
    · unfold State.captureCue
      dsimp only
      split <;> exact .of_lanes rfl rfl
    · exact (ringFrame_firing s).fireOnLanes _ _ (.of_lanes rfl rfl)
  · exact .of_lanes rfl rfl

/-- R94, R131, R161: the shares of a scan read. -/
theorem State.RingFrame.handLine (s : State) (line : Nat) (order : List ReadTok) :
    s.RingFrame (s.handLine line order) := by
  unfold State.handLine
  refine List.foldlRecOn (motive := fun r : State × ReadWork => s.RingFrame r.1) _ _
    (.of_lanes rfl rfl) fun r hr t _ => hr.trans ?_
  cases t with
  | cue n =>
    simp only [State.readTok]
    split
    · exact .sampleCue r.1 n
    · exact .refl r.1
  | report =>
    simp only [State.readTok]
    split
    · unfold State.examineLine
      split <;> exact .of_lanes rfl rfl
    · exact .refl r.1

end Sys2Proof.Machine

namespace Sys2Proof.Machine

/-! ### Loads -/

theorem State.endBus_items (s : State) : s.endBus.items = s.items := by
  unfold State.endBus
  cases s.loader.bus <;> rfl

theorem State.RingFrame.endBus (s : State) : s.RingFrame s.endBus :=
  .of_lanes s.endBus_items (State.StageFrame.endBus s).lanes

theorem State.completeReload_items (s : State) (r : ResultCode) :
    (s.completeReload r).items = s.items := by
  unfold State.completeReload
  split
  · exact (State.RingFrame.handOver _ _).items
  · rfl

theorem State.RingFrame.loadDone (s : State) (i : Image) (c : ImageConfig) :
    s.RingFrame (s.loadDone i c) :=
  .of_lanes (State.completeReload_items _ _) (State.StageFrame.loadDone s i c).lanes

theorem State.RingFrame.failLoad (s : State) (r : LoadReason) : s.RingFrame (s.failLoad r) :=
  (State.RingFrame.endBus s).trans
    (.of_lanes (State.completeReload_items _ _) (State.StageFrame.loadFail s.endBus r).lanes)

theorem State.RingFrame.receiveByte (s : State) (b : Byte) : s.RingFrame (s.receiveByte b) := by
  unfold State.receiveByte
  generalize hu : { s with loader :=
    { s.loader with bus := .reading, staging := s.loader.staging ++ [b] } } = u
  have h : s.RingFrame u := hu ▸ .of_lanes rfl rfl
  rcases u.afterByte_cases with e | ⟨r, e⟩ | ⟨i, c, e⟩
  · rwa [e]
  · rw [e]
    exact h.trans (.failLoad u r)
  · rw [e]
    exact h.trans ((State.RingFrame.endBus u).trans (.loadDone _ i c))

/-! ### The kill latch -/

theorem State.RingFrame.setLatch (s : State) : s.RingFrame s.setLatch :=
  ⟨rfl, fun n => by
    rw [show s.setLatch.lane n = s.killLanes.lane n from rfl, State.lane_killLanes, Lane.kill_ring]⟩

theorem State.RingFrame.killFall (s : State) : s.RingFrame s.killFall := by
  unfold State.killFall
  split
  · exact .of_lanes rfl rfl
  · exact .setLatch s

/-! ### The effects of commands -/

section
variable (c : Command) (s : State)

theorem laneFormEffect_rings : s.RingFrame (laneFormEffect c s).1 := by
  refine orBadArg_induct (.refl s) fun n _ => orBadArg_induct (.refl s) fun f _ => ?_
  dsimp only
  split
  · exact .refl s
  · split
    · exact .refl s
    · exact .setLane_eq s (Lane.offerForm_ring _ f)

theorem laneMotionEffect_rings : s.RingFrame (laneMotionEffect c s).1 :=
  orBadArg_induct (.refl s) fun _ _ => .setLane_eq s (Lane.offerMotion_ring _ _)

theorem restoreEffect_rings : s.RingFrame (restoreEffect c s).1 := by
  refine orBadArg_induct (.refl s) fun b _ => ?_
  split
  · exact .refl s
  · split
    · exact .refl s
    · exact List.foldlRecOn _ _ (.of_lanes rfl rfl) fun t h n _ =>
        h.trans (.setLane_eq t (Lane.restore_ring _ b))

theorem dequeueEffect_rings : s.RingFrame (dequeueEffect c s).1 := by
  refine orBadArg_induct (.refl s) fun n _ => orBadArg_induct (.refl s) fun i _ => ?_
  split
  · exact .setLane s (Lane.dequeue_ring _ _)
  · exact .refl s

theorem clearEffect_rings : s.RingFrame (clearEffect c s).1 := by
  refine orBadArg_induct (.refl s) fun n _ => ?_
  split
  · exact .setLane s (List.nil_sublist _).subperm
  · exact .refl s

theorem cueoutLevelEffect_rings : s.RingFrame (cueoutLevelEffect c s).1 := by
  refine orBadArg_induct (.refl s) fun ops _ => ?_
  split
  · exact .refl s
  · exact .of_lanes rfl rfl

end

/-! ### Every command -/

/-- Off the stage only ITEM_DEFINE and ITEM_DROP change the item store. -/
theorem exec_offStage_items {i : Instr} {s t : State} (hi : i.offStage = true) (hdef : i ≠ .itemDefine)
    (hdrop : i ≠ .itemDrop) (h : exec i s = .next t) : t.items = s.items := by
  have run : ∀ {isMine : Nat → Bool} {eff : Effect}, (∀ c, (eff c s.quiet).1.items = s.items) →
      (s.runIf isMine eff).items = s.items := fun heff =>
    State.runIf_induct (P := fun u => u.items = s.items) rfl
      (fun u e r hu => (State.RingFrame.complete u e r).items.trans hu) fun e _ _ => heff e.command
  have arg : ∀ {α : Type} {a : Option α} {f : α → State × ResultCode},
      (∀ x, (f x).1.items = s.items) → (orBadArg a s.quiet f).1.items = s.items := fun hf =>
    orBadArg_induct (P := fun u => u.items = s.items) rfl fun x _ => hf x
  have ite : ∀ {p : Prop} [Decidable p] {u v : State}, u.items = s.items → v.items = s.items →
      (if p then u else v).items = s.items := fun hu hv => by split; exacts [hu, hv]
  have write : ∀ (u : State) (size : BeatSize) (bs : List Beat), u.items = s.items →
      (u.emitWrite .own size bs).items = s.items := fun u size bs hu =>
    (State.PortFrame.emitWrite u .own size bs).items.trans hu
  cases i
  case textSegment => exact next_eq h ▸ run fun c => arg fun a => by split <;> rfl
  case styleColors => exact next_eq h ▸ run fun c => arg fun k => rfl
  case styleForm =>
    exact next_eq h ▸ run fun c => arg fun k => arg fun fl => arg fun w => by split <;> rfl
  case clockSet => exact next_eq h ▸ run fun c => arg fun t => rfl
  case scheduleSet => exact next_eq h ▸ run fun c => arg fun a => rfl
  case scheduleClear => exact next_eq h ▸ run fun c => rfl
  case cueSet => exact next_eq h ▸ run fun c => arg fun a => rfl
  case eventMask => exact next_eq h ▸ run fun c => arg fun fill => rfl
  case eventAck => exact next_eq h ▸ run fun c => rfl
  case badCommand => exact next_eq h ▸ run fun c => rfl
  case systemWrite w => exact next_eq h ▸ ite (State.PortFrame.takeWaiting _ s.quiet).items rfl
  case systemRead r => exact next_eq h ▸ ite (State.PortFrame.takeWaiting _ s.quiet).items rfl
  case heldWriteRelease => exact next_eq h ▸ ite (State.BusFrame.releaseHeld s.quiet).port.items rfl
  case stallLimitExpiry => exact next_eq h ▸ ite rfl (State.BusFrame.expireHeld s.quiet).port.items
  case resultWrite scanWaits sysWaits =>
    refine next_eq h ▸ ite ?_ rfl
    unfold State.writeResult
    split
    · rfl
    · exact write _ _ _ rfl
  case writeBackDrain reply => exact next_eq h ▸ ite rfl rfl
  case reportWrite scanWaits sysWaits more =>
    refine next_eq h ▸ ite ?_ rfl
    unfold State.writeReport
    split
    · rfl
    · exact write _ _ _ rfl
  case scanBeat index words reply =>
    refine next_eq h ▸ ite ?_ rfl
    cases reply <;> rfl
  case scanWrite addr => exact next_eq h ▸ ite rfl rfl
  case itemDefine => exact absurd rfl hdef
  case itemDrop => exact absurd rfl hdrop
  all_goals cases hi

/-- A command other than ENQUEUE, ITEM_DEFINE and ITEM_DROP brings no entry into a ring and changes no
item, or brings every lane to its reset values. -/
theorem exec_rings {i : Instr} {s t : State} (hq : i ≠ .enqueue) (hdef : i ≠ .itemDefine)
    (hdrop : i ≠ .itemDrop) (hx : exec i s = .next t) :
    s.RingFrame t ∨ t.lanes = Four.all Lane.initial := by
  have quiet : s.RingFrame s.quiet := .of_lanes rfl rfl
  have run : ∀ {isMine : Nat → Bool} {eff : Effect}, (∀ c, s.quiet.RingFrame (eff c s.quiet).1) →
      s.RingFrame (s.runIf isMine eff) := fun heff => .runIf fun c => quiet.trans (heff c)
  by_cases hoff : i.offStage = true
  · exact .inl (.of_lanes (exec_offStage_items hoff hdef hdrop hx) (exec_offStage hoff hx).lanes)
  cases i
  case enqueue => exact absurd rfl hq
  case reinit =>
    exact next_eq hx ▸ State.runIf_induct
      (P := fun u => s.RingFrame u ∨ u.lanes = Four.all Lane.initial) (.inl quiet)
      (fun u e r h => h.imp (·.trans (.complete u e r)) (State.StageFrame.complete u e r).lanes.trans)
      fun _ _ _ => .inr rfl
  case reload =>
    rcases s.quiet.runReload_cases with e | ⟨_, ⟨x, e⟩ | e | ⟨q, e⟩⟩ <;>
      rw [← next_eq hx, e]
    · exact .inl quiet
    · exact .inl (quiet.trans (.complete _ _ _))
    · exact .inr (State.StageFrame.enterLoading _).lanes
    · exact .inl (.of_lanes rfl rfl)
  case abortAnswer =>
    rw [← next_eq hx]
    split
    · unfold State.abortNext
      split
      · dsimp only
        split
        · exact .inr (State.StageFrame.enterLoading _).lanes
        · exact .inl (.after (.handOver _ _) rfl rfl)
      · exact .inl quiet
    · exact .inl quiet
  case powerOnReset => exact .inr (next_eq hx ▸ rfl)
  all_goals left
  case laneForm => exact next_eq hx ▸ run fun c => laneFormEffect_rings c _
  case laneMotion => exact next_eq hx ▸ run fun c => laneMotionEffect_rings c _
  case take => exact next_eq hx ▸ run fun c => .maskEffect _ _ c
  case start => exact next_eq hx ▸ run fun c => .maskEffect _ _ c
  case stop =>
    exact next_eq hx ▸ run fun c => orBadArg_induct (.refl _) fun a _ => .maskEffect _ a c
  case hold => exact next_eq hx ▸ run fun c => .maskEffect _ _ c
  case resume => exact next_eq hx ▸ run fun c => .maskEffect _ _ c
  case restore => exact next_eq hx ▸ run fun c => restoreEffect_rings c _
  case dequeue => exact next_eq hx ▸ run fun c => dequeueEffect_rings c _
  case clear => exact next_eq hx ▸ run fun c => clearEffect_rings c _
  case cueoutLevel => exact next_eq hx ▸ run fun c => cueoutLevelEffect_rings c _
  case scanRead addr burst levels order =>
    refine next_eq hx ▸ .ite ?_ quiet
    dsimp only
    split
    · exact .ite (.after (.handLine _ _ _) rfl rfl) (.of_lanes rfl rfl)
    · exact .of_lanes rfl rfl
  case fieldStart parity order =>
    have head : s.RingFrame (s.quiet.fieldHead parity) := .of_lanes rfl rfl
    exact next_eq hx ▸ .ite (.ite (head.trans (.fieldShares _ order)) head) quiet
  case passLimitReached n =>
    refine next_eq hx ▸ .ite ?_ quiet
    refine (quiet.trans (.setLane _ ?_)).trans (.raiseIf _ _ _)
    split <;> exact Lane.retireHead_ring s.items (s.lane n)
  case pageEnd n =>
    exact next_eq hx ▸ .ite (quiet.trans ((State.RingFrame.laneStep _ n _).trans
      ((State.RingFrame.laneStep _ n _).trans (.laneStep _ n _)))) quiet
  case holdExpiry n k => exact next_eq hx ▸ .ite (quiet.trans (.setLane_eq _ rfl)) quiet
  case fadeOutEnd n =>
    exact next_eq hx ▸ .ite
      ((quiet.trans (.setLane_eq _ (n := n) (l := (s.lane n).enterOff) rfl)).trans (.raiseIf _ true _))
      quiet
  case secondTick =>
    exact next_eq hx ▸ .ite (quiet.trans ((ringFrame_firing _).accumulate (.refl _))) quiet
  case killLatchSet =>
    have low : s.RingFrame { s.quiet with pins := { s.pins with killN := false } } := .of_lanes rfl rfl
    exact next_eq hx ▸ .ite (.ite (low.trans (.killFall _)) low) quiet
  case resetRelease straps killN =>
    refine next_eq hx ▸ .ite quiet ?_
    unfold State.releaseReset
    exact .ite (.of_lanes rfl rfl) (.after (.setLatch _) rfl rfl)
  case busFreeStart => exact next_eq hx ▸ .ite (.of_lanes rfl rfl) quiet
  case imageByteReceived b straps =>
    exact next_eq hx ▸ .ite (.after (.receiveByte _ b) rfl rfl) quiet
  case noDevice straps =>
    exact next_eq hx ▸ .ite (.after (.failLoad _ _) rfl rfl) quiet
  case arbitrationLost => exact next_eq hx ▸ .ite (.of_lanes rfl rfl) quiet
  case busTimeout straps =>
    exact next_eq hx ▸ .ite quiet (.after (.failLoad _ _) rfl rfl)
  case killNRise => exact next_eq hx ▸ .of_lanes rfl rfl
  all_goals exact absurd rfl hoff

end Sys2Proof.Machine

/-! ## The law of the rings (R22, R23, R109, R111) -/

namespace Sys2Proof.Machine

/-- `State.RingLaw` with its clauses named, the rings taken two by two. -/
structure State.Rings (s : State) : Prop where
  nodup   : ∀ n, (s.lane n).ring.Nodup
  apart   : ∀ m n, m ≠ n → List.Disjoint (s.lane m).ring (s.lane n).ring
  defined : ∀ n, ∀ i ∈ (s.lane n).ring, i < 512 ∧ (s.item i).defined = true

theorem State.ringLaw_iff (s : State) : s.RingLaw ↔ s.Rings := by
  have hlist : (s.lanes.toList.flatMap fun l => l.ring) = fours.flatMap fun n => (s.lane n).ring := rfl
  unfold State.RingLaw
  rw [hlist, List.nodup_flatMap]
  constructor
  · rintro ⟨⟨hnodup, hapart⟩, hdefined⟩
    refine ⟨fun n => hnodup n (mem_fours n), fun m n hne => ?_, hdefined⟩
    have : Std.Symm (Function.onFun List.Disjoint fun n => (s.lane n).ring) :=
      ⟨fun _ _ h => List.Disjoint.symm h⟩
    exact hapart.forall (mem_fours m) (mem_fours n) hne
  · rintro ⟨hnodup, hapart, hdefined⟩
    exact ⟨⟨fun n _ => hnodup n,
      List.Nodup.pairwise_of_forall_ne (by decide) fun m _ n _ hne => hapart m n hne⟩, hdefined⟩

/-- R22: rings that are reordered or shorter keep the law, where every defined item stays defined. -/
theorem State.Rings.of_subperm {s t : State} (h : s.Rings)
    (hitem : ∀ i, (s.item i).defined = true → (t.item i).defined = true)
    (hring : ∀ n, List.Subperm (t.lane n).ring (s.lane n).ring) : t.Rings where
  nodup := fun n => nodup_of_subperm (hring n) (h.nodup n)
  apart := fun m n hne _ hm hn => h.apart m n hne ((hring m).subset hm) ((hring n).subset hn)
  defined := fun n i hi => (h.defined n i ((hring n).subset hi)).imp_right (hitem i)

theorem State.Rings.of_frame {s t : State} (h : s.Rings) (k : s.RingFrame t) : t.Rings :=
  h.of_subperm (fun _ hi => by rwa [State.item, k.items]) k.rings

theorem State.Rings.of_initial {t : State} (h : t.lanes = Four.all Lane.initial) : t.Rings := by
  have hring : ∀ n, (t.lane n).ring = [] := fun n => by
    rw [State.lane, h, Four.get_all]
    rfl
  exact ⟨fun n => by simp [hring], fun m n _ => by simp [hring], fun n _ hi => by simp [hring] at hi⟩

/-! ### The items (R110, R111) -/

/-- A write of the default record at another number changes no reading. -/
theorem Store.get_put_default {α : Type} [DecidableEq α] {d : α} {k j : Nat} (hjk : j ≠ k) :
    ∀ m : Store α, Store.get d (Store.put d m k d) j = Store.get d m j
  | [] => by simp [Store.put]
  | (i, w) :: t => by
    have ih := Store.get_put_default (d := d) hjk t
    unfold Store.put
    split
    · simp
    · split
      · rename_i hki
        simp [Store.get, ← hki, Ne.symm hjk]
      · simp only [Store.get, ih]

/-- R110: a record that ITEM_DEFINE carries is defined. -/
theorem Command.itemRecord_defined {c : Command} {it : Item} (h : c.itemRecord = some it) :
    it.defined = true := by
  unfold Command.itemRecord at h
  simp only [Option.bind_eq_some_iff, Option.map_eq_some_iff] at h
  obtain ⟨_, _, _, _, _, _, rfl⟩ := h
  rfl

theorem State.Rings.itemDefine {s : State} (h : s.Rings) (c : Command) :
    (itemDefineEffect c s).1.Rings := by
  refine orBadArg_induct h fun i _ => orBadArg_induct h fun it hit => ?_
  have hdef := Command.itemRecord_defined hit
  split
  · exact h
  · refine h.of_subperm (fun j hj => ?_) fun n => .refl _
    have hne : it ≠ Item.undefined := fun e => by rw [e] at hdef; cases hdef
    simp only [State.item, State.setItem_items, Store.get_put_of_ne hne]
    split
    · exact hdef
    · exact hj

/-- R23: the model's test of an item in a ring. -/
theorem State.itemInRing_iff (s : State) (i : Nat) :
    s.itemInRing i = true ↔ ∃ m, i ∈ (s.lane m).ring := by
  simp only [State.itemInRing, List.any_eq_true, Four.mem_toList, List.contains_iff_mem]
  exact ⟨fun ⟨_, ⟨m, e⟩, h⟩ => ⟨m, by rwa [State.lane, e]⟩, fun ⟨m, h⟩ => ⟨_, ⟨m, rfl⟩, h⟩⟩

theorem State.not_itemInRing {s : State} {i : Nat} (h : ¬ s.itemInRing i = true) (n : Fin 4) :
    i ∉ (s.lane n).ring := fun hi => h ((s.itemInRing_iff i).mpr ⟨n, hi⟩)

/-- R111: ITEM_DROP refuses an item that stands in a ring. -/
theorem State.Rings.itemDrop {s : State} (h : s.Rings) (c : Command) :
    (itemDropEffect c s).1.Rings := by
  refine orBadArg_induct h fun i _ => ?_
  split
  · exact h
  · rename_i hin
    split
    · refine ⟨h.nodup, h.apart, fun n j hj => ?_⟩
      have hji : j ≠ i := fun e => State.not_itemInRing hin n (e ▸ hj)
      simp only [State.item, State.setItem_items, Store.get_put_default hji]
      exact h.defined n j hj
    · exact h

/-! ### ENQUEUE (R23) -/

/-- R23: an item that stands in no ring, defined and numbered below 512, may join one. -/
theorem State.Rings.enqueueLane {s : State} (h : s.Rings) (n : Fin 4) {i : Nat} (next : Bool)
    (hnew : ∀ m, i ∉ (s.lane m).ring) (hi : i < 512 ∧ (s.item i).defined = true) :
    (s.setLane n ((s.lane n).enqueue i next)).Rings := by
  have hperm := (s.lane n).enqueue_ring i next
  have hmem : ∀ m j, j ∈ ((s.setLane n ((s.lane n).enqueue i next)).lane m).ring →
      j ∈ (s.lane m).ring ∨ (m = n ∧ j = i) := fun m j hj => by
    by_cases hm : m = n
    · subst hm
      rw [State.lane_setLane_self, hperm.mem_iff, List.mem_cons] at hj
      exact hj.symm.imp_right fun e => ⟨rfl, e⟩
    · rw [State.lane_setLane_ne _ _ hm] at hj
      exact .inl hj
  refine ⟨fun m => ?_, fun m m' hne j hj hj' => ?_, fun m j hj => ?_⟩
  · by_cases hm : m = n
    · subst hm
      rw [State.lane_setLane_self, hperm.nodup_iff]
      exact List.nodup_cons.mpr ⟨hnew m, h.nodup m⟩
    · rw [State.lane_setLane_ne _ _ hm]
      exact h.nodup m
  · rcases hmem m j hj with hj | ⟨hm, hji⟩
    · rcases hmem m' j hj' with hj' | ⟨_, hji⟩
      · exact h.apart m m' hne hj hj'
      · exact hnew m (hji ▸ hj)
    · rcases hmem m' j hj' with hj' | ⟨hm', _⟩
      · exact hnew m' (hji ▸ hj')
      · exact hne (hm.trans hm'.symm)
  · rcases hmem m j hj with hj | ⟨rfl, rfl⟩
    · exact h.defined m j hj
    · exact hi

theorem State.Rings.enqueue {s : State} (h : s.Rings) (c : Command) :
    (enqueueEffect c s).1.Rings := by
  refine orBadArg_induct h fun n _ => orBadArg_induct h fun next _ => orBadArg_induct h fun i hi => ?_
  have hlt : i < 512 := by
    unfold Command.itemIndex below at hi
    simp only [Option.ite_none_right_eq_some, Option.some.injEq] at hi
    exact hi.2 ▸ hi.1
  split
  · exact h
  · rename_i hdef
    split
    · exact h
    · rename_i hin
      split
      · exact h
      · exact h.enqueueLane n next (State.not_itemInRing hin) ⟨hlt, by simpa using hdef⟩

/-! ### Every step -/

theorem State.Rings.runIf {s : State} {isMine : Nat → Bool} {eff : Effect} (h : s.Rings)
    (heff : ∀ c, (eff c s.quiet).1.Rings) : (s.runIf isMine eff).Rings :=
  State.runIf_induct (h.of_frame (.of_lanes rfl rfl)) (fun t e r ht => ht.of_frame (.complete t e r))
    fun e _ _ => heff e.command

/-- R22, R23, R111: every command keeps the law. -/
theorem State.Rings.exec {i : Instr} {s t : State} (h : s.Rings) (hx : exec i s = .next t) :
    t.Rings := by
  have quiet : s.quiet.Rings := h.of_frame (.of_lanes rfl rfl)
  by_cases hq : i = .enqueue
  · subst hq
    exact next_eq hx ▸ h.runIf quiet.enqueue
  by_cases hdef : i = .itemDefine
  · subst hdef
    exact next_eq hx ▸ h.runIf quiet.itemDefine
  by_cases hdrop : i = .itemDrop
  · subst hdrop
    exact next_eq hx ▸ h.runIf quiet.itemDrop
  rcases exec_rings hq hdef hdrop hx with k | k
  · exact h.of_frame k
  · exact .of_initial k

/-- Settles O57: ENQUEUE alone brings an item into a ring, a defined one that stands in none; ITEM_DROP
undefines none that stands in one. -/
theorem ringLawKept : Obligations.RingLawKept := by
  intro s t h hx
  rw [State.ringLaw_iff] at h ⊢
  cases hp : s.pending with
  | nil =>
    rw [step_of_idle hp] at hx
    exact next_eq hx ▸ h
  | cons c rest =>
    rw [step_of_pending hp] at hx
    exact (h.of_frame (t := { s with pending := rest }) (.of_lanes rfl rfl)).exec hx

end Sys2Proof.Machine

/-! ## The ring commands (R23, R24, R26) -/

namespace Sys2Proof.Machine

/-! ### Their arguments -/

/-- R23: the item of a ring command is one of the 512. -/
theorem Command.itemIndex_eq (c : Command) :
    c.itemIndex = if 511 < bits c.w0 0 16 then none else some (bits c.w0 0 16) := by
  unfold Command.itemIndex below Config.itemCount
  split
  · rw [if_neg (by omega)]
  · rw [if_pos (by omega)]

/-- R23: the position of ENQUEUE is TAIL or NEXT. -/
theorem Command.position_eq (c : Command) :
    c.position = if 1 < bits c.w0 16 8 then none else some (decide (bits c.w0 16 8 ≠ 0)) := by
  unfold Command.position
  split
  · rename_i h
    simp [h]
  · rename_i h
    simp [h]
  · rename_i h0 h1
    exact (if_pos (Nat.one_lt_iff_ne_zero_and_ne_one.mpr ⟨h0, h1⟩)).symm

/-! ### ENQUEUE -/

/-- R23: ENQUEUE for one of the four lanes. -/
theorem enqueueEffect_eq {c : Command} {n : Fin 4} (hn : c.lane = some n) (s : State) :
    enqueueEffect c s =
      if 1 < bits c.w0 16 8 ∨ 511 < bits c.w0 0 16 ∨ (s.item (bits c.w0 0 16)).defined = false then
        (s, .badArg)
      else if ∃ m : Fin 4, bits c.w0 0 16 ∈ (s.lane m).ring then (s, .inUse)
      else if 96 ≤ (s.lane n).ring.length then (s, .full)
      else (s.setLane n ((s.lane n).enqueue (bits c.w0 0 16) (decide (bits c.w0 16 8 ≠ 0))), .ok) := by
  simp only [enqueueEffect, hn, Command.position_eq, Command.itemIndex_eq, orBadArg]
  by_cases hpos : 1 < bits c.w0 16 8
  · simp only [hpos, if_true, true_or]
  · by_cases hi : 511 < bits c.w0 0 16
    · simp only [hpos, hi, if_true, if_false, true_or, or_true]
    · simp only [hpos, hi, if_false, false_or, State.itemInRing_iff, Bool.not_eq_true']

/-- R23: TAIL. -/
theorem Lane.enqueue_tail (l : Lane) (i : Nat) : l.enqueue i false = { l with ring := l.ring ++ [i] } :=
  rfl

/-- R23: NEXT, in front of the unplaced entries. -/
theorem Lane.enqueue_next (l : Lane) (i : Nat) :
    l.enqueue i true =
      { l with ring := l.ring.take l.placed.length ++ [i] ++ l.ring.drop l.placed.length } := by
  simp [Lane.enqueue, Lane.placedCount]

/-! ### DEQUEUE -/

/-- R24: the entry of an item stands among the placed ones, or else leaves the ring. -/
theorem Lane.dequeue_of_mem {l : Lane} {i : Nat} (h : i ∈ l.ring) :
    l.dequeue (l.ring.idxOf i) =
      if i ∈ l.ring.take l.placed.length then
        { l with placed := l.placed.modify (l.ring.idxOf i) fun p => { p with noRepeat := true } }
      else { l with ring := l.ring.erase i } := by
  simp only [List.mem_take_iff_idxOf_lt h, ← List.eraseIdx_idxOf_eq_erase]
  rfl

/-- R24: DEQUEUE for one of the four lanes. -/
theorem dequeueEffect_eq {c : Command} {n : Fin 4} (hn : c.lane = some n) (s : State) :
    dequeueEffect c s =
      if 511 < bits c.w0 0 16 then (s, .badArg)
      else if bits c.w0 0 16 ∉ (s.lane n).ring then (s, .notFound)
      else (s.setLane n ((s.lane n).dequeue ((s.lane n).ring.idxOf (bits c.w0 0 16))), .ok) := by
  simp only [dequeueEffect, hn, Command.itemIndex_eq, orBadArg]
  by_cases hi : 511 < bits c.w0 0 16
  · simp only [hi, if_true]
  · simp only [hi, if_false, List.contains_iff_mem, ite_not]

/-! ### The commands with their completion -/

section
variable {e : IntakeEntry} {n : Fin 4} (hn : e.command.lane = some n) (s : State)
include hn

theorem complete_enqueue :
    (enqueueEffect e.command s).1.complete e (enqueueEffect e.command s).2 =
      if 1 < bits e.command.w0 16 8 ∨ 511 < bits e.command.w0 0 16 ∨
          (s.item (bits e.command.w0 0 16)).defined = false then s.complete e .badArg
      else if ∃ m : Fin 4, bits e.command.w0 0 16 ∈ (s.lane m).ring then s.complete e .inUse
      else if 96 ≤ (s.lane n).ring.length then s.complete e .full
      else if bits e.command.w0 16 8 = 0 then
        (s.setLane n { s.lane n with ring := (s.lane n).ring ++ [bits e.command.w0 0 16] }).complete e .ok
      else
        (s.setLane n { s.lane n with
          ring := (s.lane n).ring.take (s.lane n).placed.length ++ [bits e.command.w0 0 16] ++
            (s.lane n).ring.drop (s.lane n).placed.length }).complete e .ok := by
  rw [enqueueEffect_eq hn]
  split
  · rfl
  · split
    · rfl
    · split
      · rfl
      · by_cases hpos : bits e.command.w0 16 8 = 0
        · simp only [hpos, ne_eq, not_true_eq_false, decide_false, if_true, Lane.enqueue_tail]
        · simp only [hpos, ne_eq, not_false_eq_true, decide_true, if_false, Lane.enqueue_next]

theorem complete_dequeue :
    (dequeueEffect e.command s).1.complete e (dequeueEffect e.command s).2 =
      if 511 < bits e.command.w0 0 16 then s.complete e .badArg
      else if bits e.command.w0 0 16 ∉ (s.lane n).ring then s.complete e .notFound
      else if bits e.command.w0 0 16 ∈ (s.lane n).ring.take (s.lane n).placed.length then
        (s.setLane n { s.lane n with
          placed := (s.lane n).placed.modify ((s.lane n).ring.idxOf (bits e.command.w0 0 16)) fun p =>
            { p with noRepeat := true } }).complete e .ok
      else
        (s.setLane n { s.lane n with
          ring := (s.lane n).ring.erase (bits e.command.w0 0 16) }).complete e .ok := by
  rw [dequeueEffect_eq hn]
  split
  · rfl
  · split
    · rfl
    · rename_i hin
      rw [Lane.dequeue_of_mem (not_not.mp hin)]
      split <;> rfl

theorem complete_clear :
    (clearEffect e.command s).1.complete e (clearEffect e.command s).2 =
      if (s.lane n).state = .off then (s.setLane n { s.lane n with ring := [] }).complete e .ok
      else s.complete e .badState := by
  simp only [clearEffect, hn, orBadArg]
  split <;> rfl

end

/-- Settles O8: the checks of ENQUEUE and DEQUEUE in their order, and what an accepted one does. -/
theorem ringCommands : Obligations.RingCommands := by
  refine ⟨fun s e n h hn => ?enqueue, fun s e h hn => ?enqueueLane, fun s e n h hn => ?dequeue,
    fun s e h hn => ?dequeueLane⟩ <;>
    refine congrArg Host.Outcome.next ((State.run_of_executes h _).trans ?_)
  case enqueue => exact complete_enqueue (Command.lane_eq_some hn) s.quiet
  case enqueueLane => simp only [enqueueEffect, Command.lane_eq_none hn, orBadArg]
  case dequeue => exact complete_dequeue (Command.lane_eq_some hn) s.quiet
  case dequeueLane => simp only [dequeueEffect, Command.lane_eq_none hn, orBadArg]

/-- Settles O9: CLEAR by the state of its lane. -/
theorem clearCommand : Obligations.ClearCommand := by
  refine ⟨fun s e n h hn => ?clear, fun s e h hn => ?lane⟩ <;>
    refine congrArg Host.Outcome.next ((State.run_of_executes h _).trans ?_)
  case clear => exact complete_clear (Command.lane_eq_some hn) s.quiet
  case lane => simp only [clearEffect, Command.lane_eq_none hn, orBadArg]

end Sys2Proof.Machine

/-! ## The retirement of the head, the end of a page and the cue crossing (R31 to R34, R42, R43) -/

namespace Sys2Proof.Machine

/-! ### States -/

theorem State.setLane_setLane (s : State) (n : Fin 4) (l l' : Lane) :
    (s.setLane n l).setLane n l' = s.setLane n l' := by
  simp only [State.setLane, Four.set_set]

/-- R157: an event that a condition sets. -/
theorem State.raiseIf_decide (s : State) (e : Event) (p : Prop) [Decidable p] :
    s.raiseIf (decide p) e = if p then s.raise e else s := by
  by_cases h : p <;> simp [h]

/-- R157: an event set twice is set once, whatever becomes of the lane in between. -/
theorem State.raiseIf_setLane_raiseIf (s : State) (n : Fin 4) (l l' : Lane) (b c : Bool) (e : Event) :
    (((s.setLane n l).raiseIf b e).setLane n l').raiseIf c e = (s.setLane n l').raiseIf (b || c) e := by
  rw [← s.setLane_setLane n l l']
  cases b with
  | false => rfl
  | true =>
    cases c with
    | false => rfl
    | true =>
      simp only [State.raiseIf_true, Bool.or_true]
      simp only [State.raise, State.setLane, BitVec.or_assoc, BitVec.or_self]

@[simp] theorem State.raiseIf_items (s : State) (c : Bool) (e : Event) :
    (s.raiseIf c e).items = s.items := by
  cases c <;> rfl

/-! ### Passes (R32) -/

theorem min_succ_eq (m k : Nat) : min m (k + 1) = if k < m then k + 1 else m := by
  split <;> omega

/-- R32: the pass counter after one more pass. -/
abbrev Lane.nextCount (l : Lane) : Nat := if l.passCount < 255 then l.passCount + 1 else 255

/-- R32: one more pass reaches the limit. -/
abbrev Lane.AtLimit (l : Lane) : Prop :=
  l.motion.passLimit ≠ 0 ∧ l.motion.passLimit ≤ l.nextCount

theorem Lane.limitReached_iff (l : Lane) :
    l.motion.limitReached (min 255 (l.passCount + 1)) = true ↔ l.AtLimit := by
  simp [Motion.limitReached, min_succ_eq]

/-- R32: a pass is counted; at the limit the counter is reset and the lane drained. -/
theorem Lane.countPass_eq (l : Lane) :
    l.countPass =
      { l with
        state := if l.AtLimit ∧ l.state = .running then .draining else l.state
        resume := if l.AtLimit ∧ l.state = .held then .draining else l.resume
        passCount := if l.AtLimit then 0 else l.nextCount } := by
  simp only [Lane.countPass, Lane.limitReached_iff]
  by_cases h : l.AtLimit
  · simp only [eq_true h, if_true, true_and, Lane.passLimit]
    cases hs : l.state <;> simp [hs]
  · simp only [eq_false h, if_false, false_and, min_succ_eq]

/-! ### The retirement of the head (R31, R32) -/

/-- R31: the item repeats and its entry has no no-repeat mark, so it goes to the tail. -/
abbrev Item.Stays (it : Item) (p : Placement) : Prop := it.repeats = true ∧ p.noRepeat = false

/-- R31, R32: the lane whose head, entry `p` of item `i`, has retired from in front of `ring` and
`placed`. -/
def Lane.retired (l : Lane) (it : Item) (i : Nat) (ring : List Nat) (p : Placement)
    (placed : List Placement) : Lane :=
  { l with
    state := if (it.marker = true ∧ l.AtLimit) ∧ l.state = .running then .draining else l.state
    resume := if (it.marker = true ∧ l.AtLimit) ∧ l.state = .held then .draining else l.resume
    passCount := if it.marker = true ∧ l.AtLimit then 0
                 else if it.marker = true then l.nextCount else l.passCount
    ring := if it.Stays p then ring ++ [i] else ring
    placed := placed }

section
variable {l : Lane} {i : Nat} {ring : List Nat} {p : Placement} {placed : List Placement}

theorem Lane.retireHead_eq (items : Store Item) (hr : l.ring = i :: ring) (hp : l.placed = p :: placed) :
    l.retireHead items =
      (l.retired (Store.get Item.undefined items i) i ring p placed,
        decide (¬ (Store.get Item.undefined items i).Stays p ∧ ring = [])) := by
  generalize hit : Store.get Item.undefined items i = it
  have hback : (it.repeats && !p.noRepeat) = decide (it.Stays p) := by
    simp [Item.Stays]
  simp only [Lane.retireHead, hr, hp, hit, hback, decide_eq_true_eq, Prod.mk.injEq]
  constructor
  · unfold Lane.retired
    by_cases hm : it.marker = true
    · simp only [hm, if_true, true_and, Lane.countPass_eq, Lane.AtLimit, Lane.nextCount]
    · simp only [hm, if_false, false_and, Bool.false_eq_true]
  · rw [Bool.eq_iff_iff]
    simp

theorem Lane.retired_works (it : Item) :
    (l.retired it i ring p placed).state.works = l.state.works := by
  simp only [Lane.retired]
  split
  · rename_i h
    rw [h.2]
    rfl
  · rfl

/-- R32: at the limit a marker's retirement resets the counter and drains the lane. -/
theorem Lane.retired_of_limit {it : Item} (hm : it.marker = true) (hl : l.AtLimit) :
    l.retired it i ring p placed =
      { l with
        state := if l.state = .running then .draining else l.state
        resume := if l.state = .held then .draining else l.resume
        passCount := 0
        ring := if it.Stays p then ring ++ [i] else ring
        placed := placed } := by
  simp only [Lane.retired, hm, eq_true hl, true_and, if_true]

end

/-- R31: the head is gone when it ends at or before the left edge. -/
theorem Lane.headGone_iff (l : Lane) :
    l.headGone = true ↔ ∃ p ∈ l.placed.head?, p.start + p.width ≤ ((l.offset / 256 : Nat) : Int) := by
  unfold Lane.headGone
  cases l.placed with
  | nil => simp
  | cons p placed =>
    simp only [List.head?_cons, Option.mem_def, Option.some.injEq, exists_eq_left', Lane.offsetPx]
    exact decide_eq_true_iff

/-! ### The retire step (R31, R43) -/

section
variable {l : Lane} (items : Store Item) (w : LaneWork)

theorem Lane.retireStep_of_not_works (hw : l.state.works = false) :
    l.retireStep items w = (l, false) := by
  simp [Lane.retireStep, hw]

theorem Lane.retireStep_crawl (hw : l.state.works = true) (hk : l.form.kind = .crawl) :
    l.retireStep items w = l.retireLoop items l.placed.length := by
  simp [Lane.retireStep, hw, hk, Lane.placedCount]

theorem Lane.retireStep_flip (hw : l.state.works = true) (hk : l.form.kind = .flip) :
    l.retireStep items w =
      if w.counted = true ∧ l.motion.dwell ≤ l.dwellCount then
        ({ (l.retireHead items).1 with dwellCount := 0 }, (l.retireHead items).2)
      else (l, false) := by
  simp [Lane.retireStep, hw, hk]

theorem Lane.retireLoop_of_not_gone (h : ¬ l.headGone = true) (fuel : Nat) :
    Lane.retireLoop items fuel l = (l, false) := by
  cases fuel with
  | zero => rfl
  | succ fuel => exact if_neg h

theorem Lane.retireLoop_of_gone (h : l.headGone = true) (fuel : Nat) :
    Lane.retireLoop items (fuel + 1) l =
      ((Lane.retireLoop items fuel (l.retireHead items).1).1,
        (l.retireHead items).2 || (Lane.retireLoop items fuel (l.retireHead items).1).2) := if_pos h

end

section
variable {s : State} {n : Fin 4} {w : LaneWork}

/-- A retire step that leaves the lane leaves the state. -/
theorem State.laneStep_retire_keep (h : w.step = 4)
    (hr : (s.lane n).retireStep s.items w.next = (s.lane n, false)) :
    s.laneStep n w = (s, w.next) := by
  rw [State.laneStep_retire s n h, hr]
  exact congrArg (·, w.next) (s.setLane_lane n)

/-- R31, R32: the retirement of the head, in a state. -/
theorem State.retireHead_eq {ring : List Nat} {i : Nat} {p : Placement} {placed : List Placement}
    (hr : (s.lane n).ring = i :: ring) (hp : (s.lane n).placed = p :: placed) :
    (s.lane n).retireHead s.items =
      ((s.lane n).retired (s.item i) i ring p placed, decide (¬ (s.item i).Stays p ∧ ring = [])) :=
  Lane.retireHead_eq s.items hr hp

/-- R31: on a CRAWL lane the step is taken again once a head has retired. -/
theorem State.laneStep_retire_again {ring : List Nat} {i : Nat} {p : Placement} {placed : List Placement}
    (h : w.step = 4) (hw : (s.lane n).state.works = true) (hk : (s.lane n).form.kind = .crawl)
    (hr : (s.lane n).ring = i :: ring) (hp : (s.lane n).placed = p :: placed)
    (hgone : (s.lane n).headGone = true) :
    s.laneStep n w =
      State.laneStep ((s.setLane n ((s.lane n).retired (s.item i) i ring p placed)).raiseIf
        (decide (¬ (s.item i).Stays p ∧ ring = [])) (.laneEmpty n)) n w := by
  have hloop : (s.lane n).retireStep s.items w.next =
      Lane.retireLoop s.items (placed.length + 1) (s.lane n) := by
    rw [Lane.retireStep_crawl _ _ hw hk, hp, List.length_cons]
  have hagain : ((s.lane n).retired (s.item i) i ring p placed).retireStep s.items w.next =
      Lane.retireLoop s.items placed.length ((s.lane n).retired (s.item i) i ring p placed) :=
    Lane.retireStep_crawl _ _ ((Lane.retired_works _).trans hw) hk
  rw [State.laneStep_retire _ n h, State.laneStep_retire _ n h, hloop, Lane.retireLoop_of_gone _ hgone,
    State.retireHead_eq hr hp]
  simp only [State.lane_raiseIf, State.lane_setLane_self, State.raiseIf_items, State.setLane_items,
    hagain, State.raiseIf_setLane_raiseIf]

/-- R43: on a FLIP lane a page that was counted and has reached its dwell retires. -/
theorem State.laneStep_page_end {l : Lane} {ring : List Nat} {i : Nat} {p : Placement}
    {placed : List Placement} (hl : s.lane n = l) (h : w.step = 4) (hw : l.state.works = true)
    (hk : l.form.kind = .flip) (hr : l.ring = i :: ring) (hp : l.placed = p :: placed)
    (hc : w.counted = true) (hd : l.motion.dwell ≤ l.dwellCount) :
    s.laneStep n w =
      ((s.setLane n { l.retired (s.item i) i ring p placed with dwellCount := 0 }).raiseIf
        (decide (¬ (s.item i).Stays p ∧ ring = [])) (.laneEmpty n), w.next) := by
  subst hl
  rw [State.laneStep_retire _ n h, Lane.retireStep_flip _ _ hw hk, if_pos ⟨hc, hd⟩,
    State.retireHead_eq hr hp]

end

/-! ### The cue crossing (R34, R136) -/

/-- R34: whether the left edge of an entry has crossed the cue column. -/
abbrev Lane.Crossed (l : Lane) (p : Placement) : Prop :=
  (l.motion.cueColumn : Int) < p.lastEdge ∧ l.edge p ≤ (l.motion.cueColumn : Int)

/-- R34, R136: the entries that cross hand their actions over one after another, head first. -/
theorem Lane.foldl_crossings (items : Store Item) (l : Lane) (u : CueUnit) :
    (l.crossings items).foldl CueUnit.apply u =
      l.entries.foldl
        (fun u x => if l.Crossed x.2 then u.apply (Store.get Item.undefined items x.1).cueOut else u) u := by
  unfold Lane.crossings
  rw [List.foldl_filterMap]
  refine List.foldl_ext _ _ u fun v x _ => ?_
  by_cases h : l.Crossed x.2
  · rw [if_pos h, if_pos h]
  · rw [if_neg h, if_neg h]

/-- R34: the cue crossing step. -/
theorem State.crossStep_eq (s : State) (n : Fin 4) :
    s.crossStep n =
      if (s.lane n).state.works = true ∧ (s.lane n).form.kind = .crawl then
        (s.handCueOuts ((s.lane n).crossings s.items)).setLane n (s.lane n).noteEdges
      else s := by
  simp only [State.crossStep, Bool.and_eq_true, beq_iff_eq]

/-! ### The statements -/

/-- Settles O36: the retire step by what holds of the head and of the page, and the crossing entry by
entry. -/
theorem retireAndCrossing : Obligations.RetireAndCrossing := by
  intro s n w l w' works px
  have hworks : l.state.works = true ↔ works := LaneState.works_iff _
  refine ⟨fun h => ⟨fun hn => ?idle, fun hk hahead => ?ahead, fun hk hshort => ?short,
    fun i ring p placed hw hr hp => ?retire⟩, fun h => ?cross⟩
  case idle =>
    have hw : l.state.works = false := Bool.eq_false_iff.mpr (mt hworks.mp hn)
    exact State.laneStep_retire_keep h (Lane.retireStep_of_not_works _ _ hw)
  case ahead =>
    refine State.laneStep_retire_keep h ?_
    cases hw : l.state.works with
    | false => exact Lane.retireStep_of_not_works _ _ hw
    | true =>
      rw [Lane.retireStep_crawl _ _ hw hk]
      refine Lane.retireLoop_of_not_gone _ (fun hg => ?_) _
      obtain ⟨p, hp, hend⟩ := (Lane.headGone_iff _).mp hg
      exact absurd (hahead p hp) (Int.not_lt.mpr hend)
  case short =>
    refine State.laneStep_retire_keep h ?_
    cases hw : l.state.works with
    | false => exact Lane.retireStep_of_not_works _ _ hw
    | true =>
      rw [Lane.retireStep_flip _ _ hw hk, if_neg]
      rintro ⟨hc, hd⟩
      rcases hshort with hn | hlt
      · exact Bool.false_ne_true (hn.symm.trans hc)
      · exact absurd hlt (Nat.not_lt.mpr hd)
  case retire =>
    intro it stays count limit l1 ends
    have hends : ∀ x : State, x.raiseIf (decide (¬ stays ∧ ring = [])) (.laneEmpty n) = ends x :=
      fun x => x.raiseIf_decide _ _
    refine ⟨fun hk hgone => ?_, fun hk hc hd => ?_⟩
    · rw [State.laneStep_retire_again h (hworks.mpr hw) hk hr hp
        ((Lane.headGone_iff _).mpr ⟨p, by rw [hp]; rfl, hgone⟩)]
      exact congrArg (State.laneStep · n w) (hends _)
    · rw [State.laneStep_page_end rfl h (hworks.mpr hw) hk hr hp hc hd]
      exact congrArg (·, w') (hends _)
  case cross =>
    rw [State.laneStep_cross s n h, State.crossStep_eq]
    refine congrArg (·, w') (ite_congr (by rw [hworks]) (fun _ => ?_) fun _ => rfl)
    extract_lets hand
    have hhand : ∀ u x, (if l.Crossed x.2 then u.apply (s.item x.1).cueOut else u) = hand u x := by
      intro u x
      have hlatch : l.Crossed x.2 ∧ u.latch = false ↔ (l.motion.cueColumn : Int) < x.2.lastEdge ∧
          x.2.start - px ≤ (l.motion.cueColumn : Int) ∧ u.latch = false := and_assoc
      simp only [hand, ← hlatch, CueUnit.apply]
      by_cases hc : l.Crossed x.2
      · cases hu : u.latch with
        | true => simp
        | false =>
          refine (if_pos hc).trans ((if_neg Bool.false_ne_true).trans
            (Eq.trans ?_ (if_pos ⟨hc, rfl⟩).symm))
          cases (s.item x.1).cueOut <;> rfl
      · rw [if_neg hc, if_neg fun h => hc h.1]
    have hcue : ((s.lane n).crossings s.items).foldl CueUnit.apply s.cue = l.entries.foldl hand s.cue :=
      (Lane.foldl_crossings _ _ _).trans (List.foldl_ext _ _ _ fun u x _ => hhand u x)
    rw [State.handCueOuts, hcue]
    rfl

end Sys2Proof.Machine

/-! ## PASS_LIMIT_REACHED (R31, R32, R42, R43; notes/assumptions/11.md) -/

namespace Sys2Proof.Machine

section
variable {s : State} {n : Fin 4}

/-- R42, R43: the cause of a page end. -/
theorem State.pageDue_iff :
    s.pageDue n = true ↔ s.device = .active ∧ (s.lane n).form.kind = .flip ∧ (s.lane n).moves = true ∧
      (s.lane n).placed ≠ [] ∧ (s.lane n).motion.dwell ≤
        (if (s.lane n).dwellCount < 65535 then (s.lane n).dwellCount + 1 else 65535) := by
  simp [State.pageDue, min_succ_eq, and_assoc]

/-- R32: the cause of a pass limit on a CRAWL lane. -/
theorem State.passDue_crawl {i : Nat} {ring : List Nat} (hk : (s.lane n).form.kind = .crawl)
    (hr : (s.lane n).ring = i :: ring) :
    s.passDue n = true ↔ s.device = .active ∧ (s.lane n).state.works = true ∧
      (s.lane n).headGone = true ∧ (s.item i).marker = true ∧ (s.lane n).AtLimit := by
  simp only [State.passDue, hk, hr, Bool.and_eq_true, beq_iff_eq, Lane.limitReached_iff, and_assoc]

/-- R32, R42, R43: the cause of a pass limit on a FLIP lane. -/
theorem State.passDue_flip {i : Nat} {ring : List Nat} (hk : (s.lane n).form.kind = .flip)
    (hr : (s.lane n).ring = i :: ring) :
    s.passDue n = true ↔ s.device = .active ∧ (s.lane n).state.works = true ∧
      s.pageDue n = true ∧ (s.item i).marker = true ∧ (s.lane n).AtLimit := by
  simp only [State.passDue, hk, hr, Bool.and_eq_true, beq_iff_eq, Lane.limitReached_iff, and_assoc]

theorem exec_passLimitReached_of_not_due (h : ¬ s.passDue n = true) :
    exec (.passLimitReached n) s = .next s.quiet := congrArg Host.Outcome.next (if_neg h)

/-- R31, R32: the retirement of a marker at the limit, on a CRAWL lane. -/
theorem exec_passLimitReached_crawl {l : Lane} {b : Bool} (h : s.passDue n = true)
    (hret : (s.lane n).retireHead s.items = (l, b)) (hk : l.form.kind = .crawl) :
    exec (.passLimitReached n) s = .next ((s.quiet.setLane n l).raiseIf b (.laneEmpty n)) := by
  refine congrArg Host.Outcome.next ((if_pos h).trans ?_)
  simp only [hret, hk]

/-- R31, R32, R43: the retirement of a marker at the limit, on a FLIP lane. -/
theorem exec_passLimitReached_flip {l : Lane} {b : Bool} (h : s.passDue n = true)
    (hret : (s.lane n).retireHead s.items = (l, b)) (hk : l.form.kind = .flip) :
    exec (.passLimitReached n) s =
      .next ((s.quiet.setLane n { l with dwellCount := 0 }).raiseIf b (.laneEmpty n)) := by
  refine congrArg Host.Outcome.next ((if_pos h).trans ?_)
  simp only [hret, hk]

end

/-- Settles O43: the pass limit is due on a CRAWL lane by its head, on a FLIP lane by its page, and the
marker's retirement is the one of `Lane.retired` at the limit. -/
theorem passLimitReached : Obligations.PassLimitReached := by
  intro s n i ring p placed hair l hr hp hworks hm hne hmax hlim stays l1 ends counts
  have hw : l.state.works = true := (LaneState.works_iff _).mpr hworks
  have hlimit : l.AtLimit := ⟨hne, by unfold Lane.nextCount; split <;> omega⟩
  have hret : l.retireHead s.items = (l1, decide (¬ stays ∧ ring = [])) := by
    rw [State.retireHead_eq hr hp, Lane.retired_of_limit hm hlimit]
  have hends : ∀ x : State, x.raiseIf (decide (¬ stays ∧ ring = [])) (.laneEmpty n) = ends x :=
    fun x => x.raiseIf_decide _ _
  have hcounts : l.form.kind = .flip → (s.pageDue n = true ↔ counts) := fun hk => by
    have hplaced : l.placed ≠ [] := by simp [hp]
    simp only [State.pageDue_iff, hair.2, Lane.moves_iff, counts, l, hk, hplaced, ne_eq,
      not_false_eq_true, true_and]
  refine ⟨fun hk hgone => ?crawl, fun hk hc => ?flip, fun hk hc => ?stays⟩
  case crawl =>
    have hhead : l.headGone = true := (Lane.headGone_iff _).mpr ⟨p, by rw [hp]; rfl, hgone⟩
    rw [← hends]
    exact exec_passLimitReached_crawl ((State.passDue_crawl hk hr).mpr ⟨hair.2, hw, hhead, hm, hlimit⟩)
      hret hk
  case flip =>
    rw [← hends]
    exact exec_passLimitReached_flip
      ((State.passDue_flip hk hr).mpr ⟨hair.2, hw, (hcounts hk).mpr hc, hm, hlimit⟩) hret hk
  case stays =>
    refine exec_passLimitReached_of_not_due fun hd => hc ((hcounts hk).mp ?_)
    obtain ⟨_, _, hpage, _⟩ := (State.passDue_flip hk hr).mp hd
    exact hpage

end Sys2Proof.Machine

/-! ## The place step (R33, R35 to R37, R43, R44) -/

namespace Sys2Proof.Machine

/-! ### What an item has to show (R36) -/

section
variable {s : State} {it : Item}

theorem State.skips_text {head : Nat} (h : it.source = .text head) :
    s.skips it = false ↔ s.chainText head ≠ [] := by
  simp only [State.skips, h]
  simp

theorem State.skips_quote {q : Nat} (h : it.source = .quote q) :
    s.skips it = false ↔ ∃ v, (s.quote q).shown = some v ∧ v.status ≠ .closed := by
  simp only [State.skips, h]
  cases hv : (s.quote q).shown <;> simp

theorem State.skips_clock (h : it.source = .clock) : s.skips it = false := by
  simp only [State.skips, h]

end

/-! ### What an entry is placed with (R35, R37) -/

/-- R37: the record of an entry placed at a strip start: the width of its source under its style,
frozen. -/
def State.placementOf (s : State) (l : Lane) (it : Item) (start : Int) : Placement :=
  { start := start, width := s.sourceWidth (s.style (l.entryStyle it)) it.source
    style := l.entryStyle it, env := Envelope.initial, lastEdge := (l.laneWidth : Int), noRepeat := false }

theorem State.placeAt_eq (s : State) (l : Lane) (it : Item) (start : Int) :
    s.placeAt l it start = { l with placed := l.placed ++ [s.placementOf l it start] } := rfl

theorem Lane.places_iff (l : Lane) :
    l.places = true ↔ l.state = .running ∨ (l.state = .held ∧ l.resume = .running) := by
  unfold Lane.places
  cases l.state <;> simp

/-! ### The entry at position p -/

section
variable {l : Lane} {placed waiting : List Nat} {i : Nat} (hr : l.ring = placed ++ i :: waiting)
  (hlen : placed.length = l.placed.length)
include hr hlen

theorem Lane.ring_at_placedCount : l.ring[l.placedCount]? = some i := by
  rw [hr, Lane.placedCount, ← hlen]
  simp

/-- R36: a skipped entry goes to the tail where its item repeats, else out of the ring. -/
theorem Lane.skipEntry_eq (it : Item) :
    l.skipEntry i it =
      ({ l with ring := if it.repeats = true then placed ++ waiting ++ [i] else placed ++ waiting },
        !it.repeats && (placed ++ waiting).isEmpty) := by
  have herase : l.ring.eraseIdx l.placedCount = placed ++ waiting := by
    rw [hr, Lane.placedCount, ← hlen, List.eraseIdx_append_of_length_le (Nat.le_refl _)]
    simp
  unfold Lane.skipEntry
  simp only [herase]
  cases it.repeats <;> rfl

end

/-! ### The place step of a CRAWL lane (R35) -/

section
variable {s : State} {l : Lane} {floor : Int} {i : Nat}

/-- R35: no entry is placed on a full strip, or where none stands unplaced. -/
theorem State.placeLoop_stop (h : 48 ≤ l.placed.length ∨ l.ring.length ≤ l.placed.length) (u : Nat) :
    s.placeLoop floor u l = (l, false) := by
  cases u with
  | zero => rfl
  | succ u =>
    unfold State.placeLoop
    split
    · rfl
    · rename_i hmax
      have hnone : l.ring[l.placedCount]? = none :=
        List.getElem?_eq_none (h.resolve_left hmax)
      rw [hnone]

theorem State.placeLoop_skip (hmax : l.placed.length < 48) (hi : l.ring[l.placedCount]? = some i)
    (hs : s.skips (s.item i) = true) (u : Nat) :
    s.placeLoop floor (u + 1) l =
      ((s.placeLoop floor u (l.skipEntry i (s.item i)).1).1,
        (l.skipEntry i (s.item i)).2 || (s.placeLoop floor u (l.skipEntry i (s.item i)).1).2) := by
  have hmax : ¬ Config.placedMax ≤ l.placedCount := Nat.not_le.mpr hmax
  simp only [State.placeLoop, hmax, if_false, hi, hs, if_true]

/-- R35: there is no room for the candidate. -/
theorem State.placeLoop_full (hmax : l.placed.length < 48) (hi : l.ring[l.placedCount]? = some i)
    (hs : s.skips (s.item i) = false) (hc : l.candidate floor = none) (u : Nat) :
    s.placeLoop floor (u + 1) l = (l, false) := by
  have hmax : ¬ Config.placedMax ≤ l.placedCount := Nat.not_le.mpr hmax
  simp only [State.placeLoop, hmax, if_false, hi, hs, Bool.false_eq_true, hc]

theorem State.placeLoop_place (hmax : l.placed.length < 48) (hi : l.ring[l.placedCount]? = some i)
    (hs : s.skips (s.item i) = false) {start : Int} (hc : l.candidate floor = some start) (u : Nat) :
    s.placeLoop floor (u + 1) l =
      s.placeLoop floor u { l with placed := l.placed ++ [s.placementOf l (s.item i) start] } := by
  have hmax : ¬ Config.placedMax ≤ l.placedCount := Nat.not_le.mpr hmax
  simp only [State.placeLoop, hmax, if_false, hi, hs, Bool.false_eq_true, hc, State.placeAt_eq]

end

/-- R1, R27: the strip position of the right edge. -/
theorem Lane.right_edge (l : Lane) :
    (l.offsetPx : Int) + (l.laneWidth : Int) =
      ((l.offset / 256 + (l.form.right - l.form.left + 1) : Nat) : Int) :=
  (Int.natCast_add _ _).symm

/-- R35: on an empty strip an entry starts at the right edge. -/
theorem Lane.candidate_empty {l : Lane} (h : l.placed = []) (floor : Int) :
    l.candidate floor = some (((l.offset / 256 + (l.form.right - l.form.left + 1) : Nat) : Int)) := by
  simp only [Lane.candidate, h, List.getLast?_nil, Lane.right_edge]

/-- R35: behind another, an entry starts at that one's end plus the gap, raised to the entry floor, where
that end is not right of the right edge. -/
theorem Lane.candidate_behind {l : Lane} {q : Placement} (h : l.placed.getLast? = some q) (floor : Int) :
    l.candidate floor =
      if ((l.offset / 256 + (l.form.right - l.form.left + 1) : Nat) : Int) <
          q.start + (q.width : Int) + (l.motion.gap : Int) then none
      else some (if q.start + (q.width : Int) + (l.motion.gap : Int) < floor then floor
        else q.start + (q.width : Int) + (l.motion.gap : Int)) := by
  have hmax : ∀ a : Int, max a floor = if a < floor then floor else a := fun a => by split <;> omega
  simp only [Lane.candidate, h, Lane.right_edge, hmax, ← Int.not_lt, ite_not]

/-! ### The place step of a FLIP lane (R43) -/

section
variable {s : State} {l : Lane} {i : Nat} {waiting : List Nat}

theorem State.placePage_empty (hr : l.ring = []) (u : Nat) : s.placePage u l = (l, false, none) := by
  cases u with
  | zero => rfl
  | succ u => simp only [State.placePage, hr, List.getElem?_nil]

variable (hp : l.placed = [])
include hp

theorem State.placePage_skip (hr : l.ring = i :: waiting) (hs : s.skips (s.item i) = true) (u : Nat) :
    s.placePage (u + 1) l =
      ((s.placePage u (l.skipEntry i (s.item i)).1).1,
        (l.skipEntry i (s.item i)).2 || (s.placePage u (l.skipEntry i (s.item i)).1).2.1,
        (s.placePage u (l.skipEntry i (s.item i)).1).2.2) := by
  have hi := Lane.ring_at_placedCount (placed := []) hr (by simp [hp])
  simp only [State.placePage, hi, hs, if_true]

/-- R43, R44: the first entry with something to show becomes the page, at strip start 0. -/
theorem State.placePage_show (hr : l.ring = i :: waiting) (hs : s.skips (s.item i) = false) (u : Nat) :
    s.placePage (u + 1) l =
      ({ l with placed := [s.placementOf l (s.item i) 0], dwellCount := 0 }, false,
        some (s.item i).cueOut) := by
  have hi := Lane.ring_at_placedCount (placed := []) hr (by simp [hp])
  simp only [State.placePage, hi, hs, Bool.false_eq_true, if_false, State.placeAt_eq, hp, List.nil_append]

end

/-! ### The place step in the work of a lane (R33, R35, R44) -/

section
variable {s : State} {n : Fin 4} {w : LaneWork} (h : w.step = 6)
include h

theorem State.laneStep_place_keep
    (hk : ¬ (s.lane n).places = true ∨ ((s.lane n).form.kind = .flip ∧ (s.lane n).placed ≠ [])) :
    s.laneStep n w = (s, w.next) := by
  rw [State.laneStep_place s n h]
  refine congrArg (·, w.next) ?_
  unfold State.placeStep
  rcases hk with hn | ⟨hk, hp⟩
  · simp [hn]
  · simp [hk, hp]

theorem State.laneStep_place_crawl (hp : (s.lane n).places = true) (hk : (s.lane n).form.kind = .crawl)
    {l : Lane} {b : Bool}
    (hr : s.placeLoop (w.noted + ((s.lane n).laneWidth : Int))
      ((s.lane n).ring.length - (s.lane n).placed.length) (s.lane n) = (l, b)) :
    s.laneStep n w = ((s.setLane n l).raiseIf b (.laneEmpty n), w.next) := by
  rw [State.laneStep_place s n h]
  refine congrArg (·, w.next) ?_
  simp only [State.placeStep, hp, hk, Lane.placedCount, hr, Bool.not_true, Bool.false_eq_true, if_false]

theorem State.laneStep_place_flip {l : Lane} (hl : s.lane n = l) (hp : l.places = true)
    (hk : l.form.kind = .flip) (he : l.placed = []) {l' : Lane} {b : Bool} {a : Option CueOut}
    (hr : s.placePage l.ring.length l = (l', b, a)) :
    s.laneStep n w = (((s.handCueOuts a.toList).setLane n l').raiseIf b (.laneEmpty n), w.next) := by
  subst hl
  rw [State.laneStep_place s n h]
  refine congrArg (·, w.next) ?_
  simp only [State.placeStep, hp, hk, he, hr, List.isEmpty_nil, Bool.not_true, Bool.false_eq_true,
    if_false, if_true]

end

/-! ### The statement -/

/-- Settles O37: the place steps of a CRAWL lane and of a FLIP lane entry by entry, and when they are
taken. -/
theorem placeStep : Obligations.PlaceStep := by
  intro s shows record
  have hshows : ∀ it, s.skips it = false ↔ shows it := by
    intro it
    cases hsrc : it.source with
    | text head => simpa only [shows, hsrc] using State.skips_text hsrc
    | quote q => simpa only [shows, hsrc] using State.skips_quote hsrc
    | clock => simpa only [shows, hsrc, iff_true] using State.skips_clock hsrc
  have hskips : ∀ it, ¬ shows it → s.skips it = true := fun it hn =>
    Bool.eq_true_of_not_eq_false (mt (hshows it).mp hn)
  have hrecord : ∀ l it start, s.placementOf l it start = record l it start := by
    intro l it start
    simp only [State.placementOf, Lane.entryStyle, record]
    cases it.override <;> rfl
  refine ⟨?strip, ?page, ?step⟩
  case strip =>
    intro l floor u
    refine ⟨rfl, fun h => State.placeLoop_stop h u, ?_⟩
    intro placed waiting i hr hlen hmax it right after
    have hi := Lane.ring_at_placedCount hr hlen
    refine ⟨?skip, fun hs he => ?first, fun q hq hs => ?behind⟩
    case skip =>
      intro hn r
      rw [State.placeLoop_skip hmax hi (hskips it hn), Lane.skipEntry_eq hr hlen, Bool.or_comm]
    case first =>
      rw [State.placeLoop_place hmax hi ((hshows it).mpr hs) (Lane.candidate_empty he floor), he, hrecord]
      rfl
    case behind =>
      have hc := Lane.candidate_behind hq floor
      by_cases hroom : right < after q
      · rw [if_pos hroom]
        rw [if_pos hroom] at hc
        exact State.placeLoop_full hmax hi ((hshows it).mpr hs) hc u
      · rw [if_neg hroom]
        rw [if_neg hroom] at hc
        rw [State.placeLoop_place hmax hi ((hshows it).mpr hs) hc, hrecord]
  case page =>
    intro l u hp
    refine ⟨rfl, fun hr => State.placePage_empty hr u, ?_⟩
    intro i waiting hr it
    refine ⟨?skip, fun hs => ?page⟩
    case skip =>
      intro hn r
      rw [State.placePage_skip hp hr (hskips it hn),
        Lane.skipEntry_eq (placed := []) hr (by simp [hp]), Bool.or_comm]
      rfl
    case page =>
      rw [State.placePage_show hp hr ((hshows it).mpr hs), hrecord]
  case step =>
    intro n w h l w' places emptied
    have hplaces : l.places = true ↔ places := l.places_iff
    have hnext : w.next = w' := by simp only [LaneWork.next, h, w']
    have hempty : ∀ (b : Bool) (x : State), x.raiseIf b (.laneEmpty n) = emptied b x := fun _ _ => rfl
    refine ⟨fun hk => ?keep, fun hp hk => ?strip, ?page⟩
    case keep =>
      rw [State.laneStep_place_keep h (hk.imp_left (mt hplaces.mp)), hnext]
    case strip =>
      rw [State.laneStep_place_crawl h (hplaces.mpr hp) hk rfl, hnext]
      rfl
    case page =>
      intro hp hk he r s1
      have hcue : s.handCueOuts r.2.2.toList = s1 := by
        simp only [s1]
        cases r.2.2 <;> rfl
      rw [State.laneStep_place_flip h rfl (hplaces.mpr hp) hk he rfl, hnext, ← hcue]
      rfl

end Sys2Proof.Machine

/-! ## PAGE_END (R42 to R44; notes/assumptions/11.md) -/

namespace Sys2Proof.Machine

section
variable {s : State} {n : Fin 4}

theorem exec_pageEnd_of_not_due (h : ¬ s.pageDue n = true) : exec (.pageEnd n) s = .next s.quiet :=
  congrArg Host.Outcome.next (if_neg h)

/-- R42, R43: a due page end is the dwell count, page end and place steps one after another. -/
theorem exec_pageEnd_of_due {u v : State} {w w' : LaneWork} (hd : s.pageDue n = true)
    (h2 : s.quiet.laneStep n { LaneWork.initial with step := 2 } = (u, w))
    (h4 : u.laneStep n { w with step := 4 } = (v, w')) :
    exec (.pageEnd n) s = .next (v.laneStep n { w' with step := 6 }).1 := by
  refine congrArg Host.Outcome.next ((if_pos hd).trans ?_)
  dsimp only
  rw [h2, h4]

/-- R42: the lane whose page has been counted. -/
def Lane.countField (l : Lane) : Lane := { l with dwellCount := min 65535 (l.dwellCount + 1) }

theorem State.laneStep_count {w : LaneWork} (h : w.step = 2) (hb : w.begun = false)
    (hk : (s.lane n).form.kind = .flip) (hm : (s.lane n).moves = true) (hp : (s.lane n).placed ≠ []) :
    s.laneStep n w = (s.setLane n (s.lane n).countField, { w.next with counted := true }) := by
  rw [State.laneStep_advance s n h, Lane.advance_flip _ hk, if_pos ⟨hm, hb, hp⟩]
  rfl

/-- R31: an unmarked head that repeats and has no no-repeat mark goes to the tail. -/
theorem Lane.retired_of_stays {l : Lane} {it : Item} {i : Nat} {ring : List Nat} {p : Placement}
    {placed : List Placement} (hm : it.marker = false) (hs : it.Stays p) :
    l.retired it i ring p placed = { l with ring := ring ++ [i], placed := placed } := by
  simp only [Lane.retired, hm, eq_true hs, Bool.false_eq_true, false_and, if_false, if_true]

/-- R43: the lane whose page has ended. -/
def Lane.takeDown (l : Lane) : Lane := { l with placed := [], dwellCount := 0 }

/-- R42, R43: where the page of a lane is its one item, repeating and unmarked, a due PAGE_END takes the
page down and leaves the place step to come. -/
theorem exec_pageEnd_single {i : Nat} {p : Placement} (hd : s.pageDue n = true)
    (hr : (s.lane n).ring = [i]) (hp : (s.lane n).placed = [p]) (hm : (s.item i).marker = false)
    (hs : (s.item i).Stays p) :
    ∃ w : LaneWork, w.step = 6 ∧ exec (.pageEnd n) s = .next
      ((s.quiet.setLane n (s.lane n).takeDown).laneStep n w).1 := by
  obtain ⟨_, hk, hmoves, hne, hdwell⟩ := State.pageDue_iff.mp hd
  rw [← min_succ_eq] at hdwell
  have hcount := State.laneStep_count (s := s.quiet) (w := { LaneWork.initial with step := 2 }) rfl rfl
    hk hmoves hne
  have hend := State.laneStep_page_end (w := { LaneWork.initial with step := 4, counted := true })
    (s.quiet.lane_setLane_self n (s.lane n).countField) rfl (Lane.works_of_moves hmoves) hk hr hp rfl
    hdwell
  have hitem : (s.quiet.setLane n (s.lane n).countField).item i = s.item i := rfl
  have hstays : decide (¬ (s.item i).Stays p ∧ ([] : List Nat) = []) = false := by
    simp [hs.1, hs.2]
  have hlane : { (s.lane n).countField with ring := [] ++ [i], placed := [], dwellCount := 0 } =
      (s.lane n).takeDown := by
    rw [List.nil_append, ← hr]
    rfl
  rw [hitem, Lane.retired_of_stays hm hs, hstays, State.raiseIf_false, State.setLane_setLane] at hend
  exact ⟨_, rfl, hlane ▸ exec_pageEnd_of_due hd hcount hend⟩

end

/-- Settles O44: PAGE_END is its three steps where the page is due; of a lane with one repeating page the
drained lane places none, and the running lane places it again. -/
theorem pageEnds : Obligations.PageEnds := by
  refine ⟨?steps, ?single⟩
  case steps =>
    intro s n hair l work due counted ended
    have hdue : s.pageDue n = true ↔ due := by
      rw [State.pageDue_iff, Lane.moves_iff]
      constructor
      · rintro ⟨_, hk, hm, hp, hd⟩
        exact ⟨hk, hp, hm, hd⟩
      · rintro ⟨hk, hp, hm, hd⟩
        exact ⟨hair.2, hk, hm, hp, hd⟩
    exact ⟨fun h => congrArg Host.Outcome.next (if_pos (hdue.mpr h)),
      fun h => exec_pageEnd_of_not_due (mt hdue.mp h)⟩
  case single =>
    intro s n i p hair l hk hr hp hrep hno hm hdwell
    have hplaced : l.placed ≠ [] := by simp [hp]
    have hdue : l.moves = true → s.pageDue n = true := fun hmoves =>
      State.pageDue_iff.mpr ⟨hair.2, hk, hmoves, hplaced, hdwell⟩
    refine ⟨fun hst => ?draining, fun hst hskip => ?running⟩
    case draining =>
      obtain ⟨w, hw, e⟩ := exec_pageEnd_single (hdue (l.moves_iff.mpr (.inr (.inl hst)))) hr hp hm
        ⟨hrep, hno⟩
      have hkeep : ¬ l.takeDown.places = true := by simp [Lane.places_iff, Lane.takeDown, hst]
      rw [e, State.laneStep_place_keep hw (.inl (by rwa [State.lane_setLane_self]))]
      rfl
    case running =>
      obtain ⟨w, hw, e⟩ := exec_pageEnd_single (hdue (l.moves_iff.mpr (.inl hst))) hr hp hm
        ⟨hrep, hno⟩
      have hsrc : s.SameSources (s.quiet.setLane n l.takeDown) := ⟨rfl, rfl, rfl, rfl, rfl, rfl⟩
      have hpage : (s.quiet.setLane n l.takeDown).placePage l.takeDown.ring.length l.takeDown =
          ({ l.takeDown with placed := [s.placementOf l.takeDown (s.item i) 0], dwellCount := 0 }, false,
            some (s.item i).cueOut) := by
        rw [hsrc.placePage, show l.takeDown.ring = [i] from hr]
        exact State.placePage_show (l := l.takeDown) rfl hr hskip 0
      rw [e, State.laneStep_place_flip hw (s.quiet.lane_setLane_self n l.takeDown)
        ((Lane.places_iff _).mpr (.inl hst)) hk rfl hpage]
      exact congrArg Host.Outcome.next
        (State.setLane_setLane { s.quiet with cue := s.cue.apply (s.item i).cueOut } n l.takeDown _)

end Sys2Proof.Machine

/-! ## What the fit check reads of a lane's run (R37, R53, R60) -/

namespace Sys2Proof.Machine

/-- R37: the entry style and the frozen width of a placement. -/
abbrev Placement.room (p : Placement) : Nat × Nat := (p.style, p.width)

/-- R53, R60: item, entry style and frozen width of each placed entry, head first. -/
def Lane.rooms (l : Lane) : List (Nat × Nat × Nat) := l.ring.zip (l.placed.map Placement.room)

theorem Lane.rooms_eq_map (l : Lane) :
    l.rooms = l.entries.map fun e => (e.1, e.2.style, e.2.width) := by
  unfold Lane.rooms Lane.entries
  rw [List.zip_map_right]
  rfl

theorem Lane.rooms_of_unplaced {l : Lane} (h : l.placed = []) : l.rooms = [] := by
  simp [Lane.rooms, h]

/-- A placed run reads of its ring the entries at its head alone. -/
theorem zip_congr_take {α β : Type} : ∀ {as bs : List α} {cs : List β},
    as.take cs.length = bs.take cs.length → as.zip cs = bs.zip cs
  | _, _, [], _ => by simp
  | [], [], _ :: _, _ => rfl
  | a :: as, b :: bs, c :: cs, h => by
    rw [List.length_cons, List.take_succ_cons, List.take_succ_cons, List.cons.injEq] at h
    rw [List.zip_cons_cons, List.zip_cons_cons, h.1, zip_congr_take h.2]

/-- The change places nothing: with the ring as long as the run, it stays so, and each entry of the new
run is one of the old with its item, entry style and frozen width. -/
def Lane.KeepsRun (l l' : Lane) : Prop :=
  l.placed.length ≤ l.ring.length → l'.placed.length ≤ l'.ring.length ∧ l'.rooms ⊆ l.rooms

theorem Lane.KeepsRun.refl (l : Lane) : l.KeepsRun l := fun h => ⟨h, List.Subset.refl _⟩

theorem Lane.KeepsRun.trans {l l' l'' : Lane} (h : l.KeepsRun l') (k : l'.KeepsRun l'') :
    l.KeepsRun l'' := fun hl =>
  have ⟨hl', hsub⟩ := h hl
  have ⟨hl'', hsub'⟩ := k hl'
  ⟨hl'', List.Subset.trans hsub' hsub⟩

theorem Lane.KeepsRun.of_unplaced {l l' : Lane} (h : l'.placed = []) : l.KeepsRun l' := fun _ =>
  ⟨by simp [h], by simp [Lane.rooms_of_unplaced h]⟩

/-- A change that leaves the ring, and of each placement the entry style and the frozen width. -/
theorem Lane.KeepsRun.of_room {l l' : Lane} (hr : l'.ring = l.ring)
    (hp : l'.placed.map Placement.room = l.placed.map Placement.room) : l.KeepsRun l' := fun h => by
  have hlen : l'.placed.length = l.placed.length := by simpa using congrArg List.length hp
  have hrooms : l'.rooms = l.rooms := by rw [Lane.rooms, Lane.rooms, hr, hp]
  exact ⟨by rwa [hlen, hr], hrooms ▸ List.Subset.refl _⟩

theorem Lane.KeepsRun.of_run {l l' : Lane} (hr : l'.ring = l.ring) (hp : l'.placed = l.placed) :
    l.KeepsRun l' := .of_room hr (by rw [hp])

/-- R22 to R24, R36: a change of the ring behind the placed entries. -/
theorem Lane.KeepsRun.setRing (l : Lane) {ring : List Nat}
    (h : ring.take l.placed.length = l.ring.take l.placed.length) :
    l.KeepsRun { l with ring := ring } := fun hl => by
  have hlen := congrArg List.length h
  rw [List.length_take, List.length_take] at hlen
  have hrooms : ({ l with ring := ring } : Lane).rooms = l.rooms :=
    zip_congr_take (by rwa [List.length_map])
  exact ⟨by dsimp only; omega, hrooms ▸ List.Subset.refl _⟩

/-! ### Changes of a lane at rest or by command (R5, R7, R9 to R18, R23, R24, R129, R139) -/

theorem Lane.KeepsRun.enterOff (l : Lane) : l.KeepsRun l.enterOff := .of_unplaced rfl

theorem Lane.KeepsRun.kill (l : Lane) : l.KeepsRun l.kill := by
  unfold Lane.kill
  split
  case h_3 => exact .enterOff l
  all_goals exact .of_run rfl rfl

theorem Lane.KeepsRun.setStyle (l : Lane) (k : Nat) : l.KeepsRun (l.setStyle k) := by
  unfold Lane.setStyle
  split <;> exact .of_run rfl rfl

theorem Lane.KeepsRun.offerForm (l : Lane) (f : Form) : l.KeepsRun (l.offerForm f) := by
  unfold Lane.offerForm
  split <;> exact .of_run rfl rfl

theorem Lane.KeepsRun.offerMotion (l : Lane) (m : Motion) : l.KeepsRun (l.offerMotion m) := by
  unfold Lane.offerMotion
  split <;> exact .of_run rfl rfl

theorem Lane.KeepsRun.restore (l : Lane) (b : Bool) : l.KeepsRun (l.restore b) := by
  unfold Lane.restore
  split <;> exact .of_run rfl rfl

/-- R23: an item joins the ring behind the placed entries. -/
theorem Lane.KeepsRun.enqueue (l : Lane) (i : Nat) (next : Bool) : l.KeepsRun (l.enqueue i next) :=
  fun hl => by
    unfold Lane.enqueue
    split
    · refine Lane.KeepsRun.setRing l ?_ hl
      rw [List.take_append_of_le_length (by simpa [Lane.placedCount] using hl), List.take_take,
        Lane.placedCount, Nat.min_self]
    · exact Lane.KeepsRun.setRing l (List.take_append_of_le_length hl) hl

/-- R24: a placed entry gets its mark, an unplaced one leaves the ring. -/
theorem Lane.KeepsRun.dequeue (l : Lane) (pos : Nat) : l.KeepsRun (l.dequeue pos) := by
  unfold Lane.dequeue
  split
  · exact .of_room rfl (map_modify_of_eq (f := Placement.room)
      (g := fun p => { p with noRepeat := true }) (fun _ => rfl) _ _)
  · rename_i hpos
    exact .setRing l (List.take_eraseIdx_eq_take_of_le _ _ _ (Nat.le_of_not_lt hpos))

/-- R7, R10 to R12: what a lane action makes of its lane: the lane in OFF, or a change of its state, resume
target, motion flag and take mark. -/
theorem State.actOnLane_eq (s : State) (a : LaneAction) (n : Fin 4) :
    ∃ l, (s.actOnLane a n).1 = s.setLane n l ∧ (l = (s.lane n).enterOff ∨ l =
      { s.lane n with
        state := l.state, resume := l.resume, motionOn := l.motionOn, takeMark := l.takeMark }) := by
  have keep : ∃ l, s = s.setLane n l ∧ (l = (s.lane n).enterOff ∨ l =
      { s.lane n with
        state := l.state, resume := l.resume, motionOn := l.motionOn, takeMark := l.takeMark }) :=
    ⟨s.lane n, (s.setLane_lane n).symm, .inr rfl⟩
  cases a with
  | start =>
    simp only [State.actOnLane, State.startLane]
    split
    · exact keep
    · split
      case h_1 =>
        split
        · exact keep
        · split
          · exact keep
          · exact ⟨_, rfl, .inr rfl⟩
      case h_4 | h_5 => exact ⟨_, rfl, .inr rfl⟩
      all_goals exact keep
  | stopDrain =>
    simp only [State.actOnLane, State.stopDrainLane]
    split
    case h_2 => exact ⟨_, rfl, .inl rfl⟩
    case h_3 | h_5 => exact ⟨_, rfl, .inr rfl⟩
    all_goals exact keep
  | stopFade =>
    simp only [State.actOnLane, State.stopFadeLane]
    split
    case h_2 => exact ⟨_, rfl, .inl rfl⟩
    case h_3 | h_4 | h_5 => exact ⟨_, rfl, .inr rfl⟩
    all_goals exact keep
  | hold =>
    simp only [State.actOnLane, State.holdLane]
    split
    case h_1 | h_2 => exact ⟨_, rfl, .inr rfl⟩
    all_goals exact keep
  | resume =>
    simp only [State.actOnLane, State.resumeLane]
    split
    case h_1 => exact ⟨_, rfl, .inr rfl⟩
    all_goals exact keep
  | take =>
    simp only [State.actOnLane, State.takeLane]
    split
    · exact keep
    · exact ⟨_, rfl, .inr rfl⟩

/-! ### Changes in a field start's work that place nothing (R8, R9, R14 to R17, R28 to R38, R42, R43) -/

theorem Lane.KeepsRun.takeApply (l : Lane) : l.KeepsRun l.takeApply := by
  cases h : l.takeMark
  · rw [Lane.takeApply_of_not h]
    exact .refl l
  · rw [Lane.takeApply_eq h]
    exact .of_run rfl rfl

theorem Lane.KeepsRun.begin (l : Lane) : l.KeepsRun l.begin := by
  unfold Lane.begin
  split <;> exact .of_run rfl rfl

theorem Lane.KeepsRun.advance (l : Lane) (w : LaneWork) : l.KeepsRun (l.advance w).1 := by
  unfold Lane.advance
  split
  · exact .refl l
  · split
    · exact .of_run rfl rfl
    · split <;> exact .of_run rfl rfl

theorem Lane.KeepsRun.rebaseStep (l : Lane) (w : LaneWork) : l.KeepsRun (l.rebaseStep w).1 := by
  obtain ⟨o, _, e⟩ := l.rebase_shift
  rw [Lane.rebaseStep_eq]
  split
  · rw [e]
    exact .of_room rfl List.map_map
  · exact .refl l

theorem Lane.KeepsRun.countPass (l : Lane) : l.KeepsRun l.countPass := by
  unfold Lane.countPass Lane.passLimit
  dsimp only
  split
  · split <;> exact .of_run rfl rfl
  · exact .of_run rfl rfl

/-- R31: the head leaves the run, and the ring or moves to its tail. -/
theorem Lane.KeepsRun.retireHead (items : Store Item) (l : Lane) :
    l.KeepsRun (l.retireHead items).1 := fun hl => by
  unfold Lane.retireHead
  split
  · rename_i e ring p placed hring hplaced
    rw [hring, hplaced, List.length_cons, List.length_cons, Nat.add_le_add_iff_right] at hl
    have hrest : ({ l with ring := ring, placed := placed } : Lane).rooms ⊆ l.rooms := by
      rw [Lane.rooms, Lane.rooms, hring, hplaced]
      exact List.subset_cons_self _ _
    have hback : ∀ b : Bool, ({ l with ring := ring, placed := placed } : Lane).KeepsRun
        { l with ring := if b then ring ++ [e] else ring, placed := placed } := fun b => by
      refine .setRing { l with ring := ring, placed := placed } ?_
      cases b
      · rfl
      · exact List.take_append_of_le_length hl
    dsimp only
    split
    · obtain ⟨hlen, hsub⟩ := (hback _).trans (.countPass _) hl
      exact ⟨hlen, List.Subset.trans hsub hrest⟩
    · obtain ⟨hlen, hsub⟩ := hback _ hl
      exact ⟨hlen, List.Subset.trans hsub hrest⟩
  · exact Lane.KeepsRun.refl l hl

theorem Lane.KeepsRun.retireStep (items : Store Item) (l : Lane) (w : LaneWork) :
    l.KeepsRun (l.retireStep items w).1 :=
  Lane.retireStep_induct (Q := l.KeepsRun) w (.refl l)
    (fun _ _ l' h => h.trans (.retireHead items l'))
    fun _ _ => (Lane.KeepsRun.retireHead items l).trans (.of_run rfl rfl)

/-- R36: a skipped entry stands behind the placed ones. -/
theorem Lane.KeepsRun.skipEntry (l : Lane) (e : Nat) (it : Item) (hlt : l.placedCount < l.ring.length) :
    l.KeepsRun (l.skipEntry e it).1 := by
  have herase : (l.ring.eraseIdx l.placedCount).take l.placed.length = l.ring.take l.placed.length :=
    List.take_eraseIdx_eq_take_of_le _ _ _ (Nat.le_refl _)
  unfold Lane.skipEntry
  dsimp only
  split
  · refine .setRing l (Eq.trans (List.take_append_of_le_length ?_) herase)
    rw [List.length_eraseIdx_of_lt hlt]
    exact Nat.le_sub_one_of_lt hlt
  · exact .setRing l herase

theorem Lane.KeepsRun.drainCheck (l : Lane) : l.KeepsRun l.drainCheck := by
  unfold Lane.drainCheck
  split <;> exact .of_run rfl rfl

theorem Lane.KeepsRun.fadeStep (l : Lane) : l.KeepsRun l.fadeStep := by
  unfold Lane.fadeStep
  split <;> exact .of_run rfl rfl

/-- R57: a transfer's strikes. -/
theorem Lane.KeepsRun.struck (l : Lane) {ps : List Placement}
    (h : List.Forall₂ Placement.Struck l.placed ps) : l.KeepsRun { l with placed := ps } :=
  .of_room rfl (Placement.map_of_struck (fun _ _ hp => Prod.ext hp.style hp.width) h)

end Sys2Proof.Machine

/-! ## What the system port keeps (R46, R51, R142 to R147, R153) -/

namespace Sys2Proof.Machine

/-- A property of states that the beats of a transaction keep: it outlasts the monitor's merge of a beat
and the outcome of a closing write. -/
structure KeptByBeats (P : State → Prop) : Prop where
  monitor : ∀ s b, P s → P (s.monitor b)
  settle  : ∀ s n c d, P s → P (s.settle n c d)

/-- A property of states that the system port keeps: it outlasts also what is driven on a port, and what
the port holds. -/
structure KeptByPorts (P : State → Prop) : Prop extends KeptByBeats P where
  emit : ∀ s e, P s → P (s.emit e)
  port : ∀ (s : State) p, P s → P { s with port := p }

/-- R51, R141: the beats that are taken in order. -/
theorem KeptByBeats.takeBeats {P : State → Prop} (hP : KeptByBeats P) :
    ∀ (bs : List Beat) {s : State}, P s → P (s.takeBeats bs).state
  | [], _, h => h
  | b :: bs, s, h => by
    have hb := hP.monitor s b h
    unfold State.takeBeats
    split
    · exact hP.takeBeats bs hb
    · dsimp only
      split
      · exact h
      · exact hP.takeBeats bs (hP.settle _ _ _ _ hb)

section
variable {P : State → Prop} (hP : KeptByPorts P)
include hP

theorem KeptByPorts.pass {t : Taken} (size : BeatSize) (priorErr : Bool) (rs : List MemResp)
    (h : P t.state) : P (t.pass size priorErr rs) := by
  have hw : P (t.state.emitWrite .system size t.passed) := by
    unfold State.emitWrite
    split
    · exact h
    · exact hP.emit _ _ h
  unfold Taken.pass
  dsimp only
  split
  · exact hP.emit _ _ hw
  · exact hP.port _ _ hw

theorem KeptByPorts.takeTxn (t : SysTxn) {s : State} (h : P s) : P (s.takeTxn t) := by
  cases t with
  | write w => exact hP.pass _ _ _ (hP.takeBeats w.beats h)
  | read r => exact hP.emit _ _ (hP.emit _ _ h)

theorem KeptByPorts.takeWaiting : ∀ (ts : List SysTxn) {s : State}, P s → P (s.takeWaiting ts)
  | [], _, h => hP.port _ _ h
  | t :: ts, s, h => by
    unfold State.takeWaiting
    split
    · exact hP.port _ _ h
    · exact KeptByPorts.takeWaiting ts (hP.takeTxn t h)

theorem KeptByPorts.releaseBeats (need : HoldNeed) (bs : List Beat) {s : State} (h : P s) :
    P (s.releaseBeats need bs).state := by
  cases bs with
  | nil => exact h
  | cons b bs =>
    have hb := hP.monitor s b h
    unfold State.releaseBeats
    dsimp only
    split
    · exact hP.takeBeats bs hb
    · split
      · exact h
      · exact hP.takeBeats bs (hP.settle _ _ _ _ hb)

theorem KeptByPorts.expireBeats (bs : List Beat) {s : State} (h : P s) :
    P (s.expireBeats bs).state := by
  cases bs with
  | nil => exact h
  | cons b bs =>
    have hb := hP.monitor s b h
    unfold State.expireBeats
    dsimp only
    split
    · exact hP.takeBeats bs hb
    · exact hP.takeBeats bs (hP.settle _ 0 _ .discard hb)

theorem KeptByPorts.releaseHeld {s : State} (h : P s) : P s.releaseHeld := by
  unfold State.releaseHeld
  split
  · exact h
  · exact hP.takeWaiting _ (hP.pass _ _ _ (hP.releaseBeats _ _ (hP.port _ _ h)))

theorem KeptByPorts.expireHeld {s : State} (h : P s) : P s.expireHeld := by
  unfold State.expireHeld
  split
  · exact h
  · exact hP.takeWaiting _ (hP.pass _ _ _ (hP.expireBeats _ (hP.port _ _ h)))

end

end Sys2Proof.Machine

/-! ## Steps that place nothing and leave what a width is computed from (R60) -/

namespace Sys2Proof.Machine

/-! ### The change of a state -/

/-- The change leaves the items, the fonts, the current styles and the shown values, and no lane has an
entry placed that it had not. The canonical form of the quote slots is kept with it, since a write of a
slot is read back through it. -/
structure State.FitFrame (s t : State) : Prop where
  items : t.items = s.items
  fonts : t.fonts = s.fonts
  cur   : t.styles.cur = s.styles.cur
  shown : Store.wf QuoteSlot.initial s.quotes = true →
    Store.wf QuoteSlot.initial t.quotes = true ∧ ∀ k, (t.quote k).shown = (s.quote k).shown
  runs  : ∀ n, (s.lane n).KeepsRun (t.lane n)

/-- All of a state that the fit law reads. -/
abbrev State.fitPart (s : State) : Store Item × Four Font × Store Style × Store QuoteSlot × Four Lane :=
  (s.items, s.fonts, s.styles.cur, s.quotes, s.lanes)

theorem State.FitFrame.of_part {s t : State} (h : t.fitPart = s.fitPart) : s.FitFrame t := by
  simp only [State.fitPart, Prod.mk.injEq] at h
  obtain ⟨hi, hf, hc, hq, hl⟩ := h
  refine ⟨hi, hf, hc, fun hwf => ⟨hq ▸ hwf, fun k => ?_⟩, fun n => ?_⟩
  · rw [State.quote, hq, ← State.quote]
  · rw [State.lane, State.lane, hl]
    exact .refl _

theorem State.FitFrame.refl (s : State) : s.FitFrame s := .of_part rfl

theorem State.FitFrame.trans {s t u : State} (h : s.FitFrame t) (k : t.FitFrame u) : s.FitFrame u where
  items := k.items.trans h.items
  fonts := k.fonts.trans h.fonts
  cur := k.cur.trans h.cur
  shown := fun hwf =>
    have ⟨ht, hst⟩ := h.shown hwf
    have ⟨hu, htu⟩ := k.shown ht
    ⟨hu, fun i => (htu i).trans (hst i)⟩
  runs := fun n => (h.runs n).trans (k.runs n)

/-- Behind a change of nothing the law reads. -/
theorem State.FitFrame.after {s t u : State} (k : t.FitFrame u) (h : t.fitPart = s.fitPart) :
    s.FitFrame u := (State.FitFrame.of_part h).trans k

theorem State.FitFrame.setLane (s : State) {n : Fin 4} {l : Lane} (h : (s.lane n).KeepsRun l) :
    s.FitFrame (s.setLane n l) := by
  refine ⟨rfl, rfl, rfl, fun hwf => ⟨hwf, fun _ => rfl⟩, fun m => ?_⟩
  by_cases hm : m = n
  · subst hm
    rwa [State.lane_setLane_self]
  · rw [State.lane_setLane_ne s l hm]
    exact .refl _

theorem State.FitFrame.ite {s t u : State} {p : Prop} [Decidable p] (ht : s.FitFrame t)
    (hu : s.FitFrame u) : s.FitFrame (if p then t else u) := by
  split
  · exact ht
  · exact hu

theorem State.FitFrame.raiseIf (s : State) (c : Bool) (e : Event) : s.FitFrame (s.raiseIf c e) := by
  cases c <;> exact .of_part rfl

theorem State.FitFrame.handOver (s : State) (r : ResultWord) : s.FitFrame (s.handOver r) := by
  rw [State.handOver_eq]
  exact .of_part rfl

theorem State.FitFrame.complete (s : State) (e : IntakeEntry) (r : ResultCode) :
    s.FitFrame (s.complete e r) := by
  rw [State.complete_eq]
  exact .of_part rfl

theorem State.FitFrame.runIf {s : State} {isMine : Nat → Bool} {eff : Effect}
    (heff : ∀ c, s.quiet.FitFrame (eff c s.quiet).1) : s.FitFrame (s.runIf isMine eff) :=
  State.runIf_induct (.of_part rfl) (fun t e r h => h.trans (.complete t e r)) fun e _ _ =>
    .after (heff e.command) rfl

/-! ### Ports, lane actions, the clock and the scan port -/

/-- R47, R48: the monitor changes no shown value. -/
theorem State.FitFrame.monitor (s : State) (b : Beat) : s.FitFrame (s.monitor b) := by
  unfold State.monitor
  split
  · split <;> exact .of_part rfl
  · rename_i k _
    split
    · refine ⟨rfl, rfl, rfl, fun hwf => ⟨Store.put_wf hwf, fun j => ?_⟩, fun n => .refl _⟩
      simp only [State.quote, State.setQuote_quotes, Store.get_put hwf]
      split
      · rename_i hjk
        rw [hjk]
        rfl
      · rfl
    · exact .refl s
  · exact .refl s

theorem fitFrame_ports (s : State) : KeptByPorts s.FitFrame where
  monitor := fun t b h => h.trans (.monitor t b)
  settle := fun t n c d h => h.trans <| by
    cases d with
    | answer r => exact .handOver t _
    | append | discard | hold => exact .of_part rfl
  emit := fun _ _ h => h.trans (.of_part rfl)
  port := fun _ _ h => h.trans (.of_part rfl)

theorem State.FitFrame.actOnLane (s : State) (a : LaneAction) (n : Fin 4) :
    s.FitFrame (s.actOnLane a n).1 := by
  obtain ⟨l, e, hl⟩ := s.actOnLane_eq a n
  rw [e]
  refine .setLane s ?_
  rcases hl with hl | hl <;> rw [hl]
  · exact .enterOff _
  · exact .of_run rfl rfl

theorem fitFrame_firing (s : State) : KeptByFiring s.FitFrame where
  clock := fun _ _ h => h.trans (.of_part rfl)
  sched := fun _ _ _ h => h.trans (.of_part rfl)
  raise := fun _ _ h => h.trans (.of_part rfl)
  act := fun t a n h => h.trans (.actOnLane t a n)
  style := fun t _ k h => h.trans (.setLane t (.setStyle _ k))

theorem State.FitFrame.maskEffect (s : State) (a : LaneAction) (c : Command) :
    s.FitFrame (maskEffect a c s).1 := by
  unfold Machine.maskEffect
  split
  · exact .refl s
  · exact State.overLanes_induct (P := s.FitFrame) (fun u n h => h.trans (.actOnLane u a n)) _ s
      (.refl s)

/-- R132, R133: the sampling of a cue input. -/
theorem State.FitFrame.sampleCue (s : State) (n : Fin 4) : s.FitFrame (s.sampleCue n) := by
  unfold State.sampleCue
  dsimp only
  split
  · unfold State.fireCue
    split
    · exact .of_part rfl
    · unfold State.captureCue
      dsimp only
      split <;> exact .of_part rfl
    · exact (fitFrame_firing s).fireOnLanes _ _ (.of_part rfl)
  · exact .of_part rfl

/-- R94, R131, R161: the shares of a scan read. -/
theorem State.FitFrame.handLine (s : State) (line : Nat) (order : List ReadTok) :
    s.FitFrame (s.handLine line order) := by
  unfold State.handLine
  refine List.foldlRecOn (motive := fun r : State × ReadWork => s.FitFrame r.1) _ _ (.of_part rfl)
    fun r hr t _ => hr.trans ?_
  cases t with
  | cue n =>
    simp only [State.readTok]
    split
    · exact .sampleCue r.1 n
    · exact .refl r.1
  | report =>
    simp only [State.readTok]
    split
    · unfold State.examineLine
      split <;> exact .of_part rfl
    · exact .refl r.1

/-- R155, R156, R162: the part's own writes. -/
theorem State.FitFrame.emitWrite (s : State) (src : Source) (size : BeatSize) (bs : List Beat) :
    s.FitFrame (s.emitWrite src size bs) := by
  unfold State.emitWrite
  split <;> exact .of_part rfl

/-! ### The kill latch (R18, R137) -/

theorem State.FitFrame.setLatch (s : State) : s.FitFrame s.setLatch :=
  ⟨rfl, rfl, rfl, fun hwf => ⟨hwf, fun _ => rfl⟩, fun n => by
    rw [show s.setLatch.lane n = s.killLanes.lane n from rfl, State.lane_killLanes]
    exact .kill _⟩

theorem State.FitFrame.killFall (s : State) : s.FitFrame s.killFall := by
  unfold State.killFall
  split
  · exact .of_part rfl
  · exact .setLatch s

/-! ### The effects of commands -/

section
variable (c : Command) (s : State)

theorem laneFormEffect_fit : s.FitFrame (laneFormEffect c s).1 := by
  refine orBadArg_induct (.refl s) fun n _ => orBadArg_induct (.refl s) fun f _ => ?_
  dsimp only
  split
  · exact .refl s
  · split
    · exact .refl s
    · exact .setLane s (.offerForm _ f)

theorem restoreEffect_fit : s.FitFrame (restoreEffect c s).1 := by
  refine orBadArg_induct (.refl s) fun b _ => ?_
  split
  · exact .refl s
  · split
    · exact .refl s
    · exact List.foldlRecOn _ _ (.of_part rfl) fun t h n _ => h.trans (.setLane t (.restore _ b))

theorem enqueueEffect_fit : s.FitFrame (enqueueEffect c s).1 := by
  refine orBadArg_induct (.refl s) fun n _ => orBadArg_induct (.refl s) fun next _ =>
    orBadArg_induct (.refl s) fun i _ => ?_
  split
  · exact .refl s
  · split
    · exact .refl s
    · split
      · exact .refl s
      · exact .setLane s (.enqueue _ i next)

theorem dequeueEffect_fit : s.FitFrame (dequeueEffect c s).1 := by
  refine orBadArg_induct (.refl s) fun n _ => orBadArg_induct (.refl s) fun i _ => ?_
  split
  · exact .setLane s (.dequeue _ _)
  · exact .refl s

/-- R26: CLEAR empties the ring of a lane in OFF, which has nothing placed. -/
theorem clearEffect_fit (h : s.LaneLaw) : s.FitFrame (clearEffect c s).1 := by
  refine orBadArg_induct (.refl s) fun n _ => ?_
  split
  · rename_i hoff
    exact .setLane s (.of_unplaced ((h.within n).off hoff).1.1)
  · exact .refl s

end

/-! ### Every command but four -/

/-- Nothing is placed in any lane. -/
abbrev State.Unplaced (s : State) : Prop := ∀ n, (s.lane n).placed = []

theorem State.Unplaced.of_lanes {s t : State} (h : s.Unplaced) (k : t.lanes = s.lanes) : t.Unplaced :=
  fun n => by rw [State.lane, k]; exact h n

theorem State.unplaced_of_initial {t : State} (h : t.lanes = Four.all Lane.initial) : t.Unplaced :=
  fun n => by rw [State.lane, h, Four.get_all]; rfl

/-- R164, R169: the end of a failed load leaves the lanes. -/
theorem State.failLoad_lanes (s : State) (r : LoadReason) : (s.failLoad r).lanes = s.lanes :=
  (State.StageFrame.loadFail s.endBus r).lanes.trans (State.StageFrame.endBus s).lanes

/-- R168, R169: a byte of the image leaves the lanes. -/
theorem State.receiveByte_lanes (s : State) (b : Byte) : (s.receiveByte b).lanes = s.lanes := by
  unfold State.receiveByte
  generalize hu : { s with loader :=
    { s.loader with bus := .reading, staging := s.loader.staging ++ [b] } } = u
  have h : u.lanes = s.lanes := hu ▸ rfl
  rcases u.afterByte_cases with e | ⟨r, e⟩ | ⟨i, c, e⟩
  · rwa [e]
  · rw [e, State.failLoad_lanes, h]
  · rw [e, ← h]
    exact (State.StageFrame.loadDone _ i c).lanes.trans (State.StageFrame.endBus u).lanes

/-- R54, R165: a loader that reads finds nothing placed. -/
theorem State.DeviceLaw.unplaced {s : State} (h : s.DeviceLaw) (hb : s.loader.bus ≠ .idle) :
    s.Unplaced := fun n => by
  have hload := h.1 hb
  exact ((h.2.2 (by simp [hload])).1 n).2

/-- A command other than ITEM_DEFINE, ITEM_DROP, FIELD_START and PAGE_END places nothing and leaves what a
width is computed from, or nothing is placed after it. -/
theorem exec_fitFrame {i : Instr} {s t : State} (hl : s.LaneLaw) (hd : s.DeviceLaw)
    (hdef : i ≠ .itemDefine) (hdrop : i ≠ .itemDrop) (hfield : ∀ p o, i ≠ .fieldStart p o)
    (hpage : ∀ n, i ≠ .pageEnd n) (hx : exec i s = .next t) : s.FitFrame t ∨ t.Unplaced := by
  have quiet : s.FitFrame s.quiet := .of_part rfl
  have run : ∀ {isMine : Nat → Bool} {eff : Effect}, (∀ c, s.quiet.FitFrame (eff c s.quiet).1) →
      s.FitFrame (s.runIf isMine eff) := fun heff => .runIf heff
  have arg : ∀ {α : Type} {a : Option α} {f : α → State × ResultCode},
      (∀ x, s.quiet.FitFrame (f x).1) → s.quiet.FitFrame (orBadArg a s.quiet f).1 := fun hf =>
    orBadArg_induct (.refl _) fun x _ => hf x
  have load : ∀ {u : State}, s.loader.bus ≠ .idle → u.lanes = s.lanes → u.Unplaced := fun hb hu =>
    (hd.unplaced hb).of_lanes hu
  cases i
  case itemDefine => exact absurd rfl hdef
  case itemDrop => exact absurd rfl hdrop
  case fieldStart p o => exact absurd rfl (hfield p o)
  case pageEnd n => exact absurd rfl (hpage n)
  case reinit =>
    exact next_eq hx ▸ State.runIf_induct (P := fun u => s.FitFrame u ∨ u.Unplaced) (.inl quiet)
      (fun u e r h => h.imp (·.trans (.complete u e r))
        fun hu => hu.of_lanes (State.StageFrame.complete u e r).lanes)
      fun _ _ _ => .inr (State.unplaced_of_initial rfl)
  case reload =>
    rcases s.quiet.runReload_cases with e | ⟨_, ⟨x, e⟩ | e | ⟨q, e⟩⟩ <;>
      rw [← next_eq hx, e]
    · exact .inl quiet
    · exact .inl (quiet.trans (.complete _ _ _))
    · exact .inr (State.unplaced_of_initial (State.StageFrame.enterLoading _).lanes)
    · exact .inl (.of_part rfl)
  case abortAnswer =>
    rw [← next_eq hx]
    split
    · unfold State.abortNext
      split
      · dsimp only
        split
        · exact .inr (State.unplaced_of_initial (State.StageFrame.enterLoading _).lanes)
        · exact .inl (.after (.handOver _ _) rfl)
      · exact .inl quiet
    · exact .inl quiet
  case powerOnReset => exact .inr (next_eq hx ▸ State.unplaced_of_initial rfl)
  case imageByteReceived b straps =>
    rw [← next_eq hx]
    split
    · rename_i hb
      refine .inr (load (fun e => ?_) (State.receiveByte_lanes _ b))
      simp [e, BusPhase.holds] at hb
    · exact .inl quiet
  case noDevice straps =>
    rw [← next_eq hx]
    split
    · rename_i hb
      exact .inr (load (by simp [hb]) (State.failLoad_lanes _ _))
    · exact .inl quiet
  case busTimeout straps =>
    rw [← next_eq hx]
    split
    · exact .inl quiet
    · rename_i hb
      exact .inr (load hb (State.failLoad_lanes _ _))
  all_goals left
  case laneForm => exact next_eq hx ▸ run fun c => laneFormEffect_fit c _
  case laneMotion =>
    exact next_eq hx ▸ run fun c => arg fun n => .setLane _ (.offerMotion _ _)
  case take => exact next_eq hx ▸ run fun c => .maskEffect _ _ c
  case start => exact next_eq hx ▸ run fun c => .maskEffect _ _ c
  case stop => exact next_eq hx ▸ run fun c => arg fun a => .maskEffect _ a c
  case hold => exact next_eq hx ▸ run fun c => .maskEffect _ _ c
  case resume => exact next_eq hx ▸ run fun c => .maskEffect _ _ c
  case restore => exact next_eq hx ▸ run fun c => restoreEffect_fit c _
  case enqueue => exact next_eq hx ▸ run fun c => enqueueEffect_fit c _
  case dequeue => exact next_eq hx ▸ run fun c => dequeueEffect_fit c _
  case clear => exact next_eq hx ▸ run fun c => clearEffect_fit c _ hl
  case textSegment => exact next_eq hx ▸ run fun c => arg fun a => by split <;> exact .of_part rfl
  case styleColors => exact next_eq hx ▸ run fun c => arg fun k => .of_part rfl
  case styleForm =>
    exact next_eq hx ▸ run fun c => arg fun k => arg fun fl => arg fun w => by
      split <;> exact .of_part rfl
  case clockSet => exact next_eq hx ▸ run fun c => arg fun t => .of_part rfl
  case scheduleSet => exact next_eq hx ▸ run fun c => arg fun a => .of_part rfl
  case scheduleClear => exact next_eq hx ▸ run fun c => .of_part rfl
  case cueSet => exact next_eq hx ▸ run fun c => arg fun a => .of_part rfl
  case cueoutLevel =>
    exact next_eq hx ▸ run fun c => arg fun ops => by split <;> exact .of_part rfl
  case eventMask => exact next_eq hx ▸ run fun c => arg fun fill => .of_part rfl
  case eventAck => exact next_eq hx ▸ run fun c => .of_part rfl
  case badCommand => exact next_eq hx ▸ run fun c => .refl _
  case systemWrite w => exact next_eq hx ▸ .ite ((fitFrame_ports s).takeWaiting _ quiet) quiet
  case systemRead r => exact next_eq hx ▸ .ite ((fitFrame_ports s).takeWaiting _ quiet) quiet
  case heldWriteRelease => exact next_eq hx ▸ .ite ((fitFrame_ports s).releaseHeld quiet) quiet
  case stallLimitExpiry => exact next_eq hx ▸ .ite quiet ((fitFrame_ports s).expireHeld quiet)
  case resultWrite scanWaits sysWaits =>
    refine next_eq hx ▸ .ite ?_ quiet
    unfold State.writeResult
    split
    · exact quiet
    · exact .after (.emitWrite _ _ _ _) rfl
  case writeBackDrain reply => exact next_eq hx ▸ .ite (.of_part rfl) quiet
  case reportWrite scanWaits sysWaits more =>
    refine next_eq hx ▸ .ite ?_ quiet
    unfold State.writeReport
    split
    · exact quiet
    · exact .after (.emitWrite _ _ _ _) rfl
  case scanRead addr burst levels order =>
    refine next_eq hx ▸ .ite ?_ quiet
    dsimp only
    split
    · exact .ite (.after (.handLine _ _ _) rfl) (.of_part rfl)
    · exact .of_part rfl
  case scanBeat index words reply =>
    refine next_eq hx ▸ .ite ?_ quiet
    cases reply <;> exact .of_part rfl
  case scanWrite addr => exact next_eq hx ▸ .ite (.of_part rfl) quiet
  case passLimitReached n =>
    refine next_eq hx ▸ .ite ?_ quiet
    refine (quiet.trans (.setLane _ ?_)).trans (.raiseIf _ _ _)
    split
    · exact .retireHead s.items (s.lane n)
    · exact (Lane.KeepsRun.retireHead s.items (s.lane n)).trans (.of_run rfl rfl)
  case holdExpiry n k =>
    refine next_eq hx ▸ .ite (quiet.trans (.setLane _ (.of_room rfl ?_))) quiet
    refine map_modify_of_eq (f := Placement.room) (fun p => ?_) _ _
    split <;> rfl
  case fadeOutEnd n =>
    refine next_eq hx ▸ .ite (.trans ?_ (.raiseIf _ true _)) quiet
    exact quiet.trans (.setLane s.quiet (.enterOff _))
  case secondTick => exact next_eq hx ▸ .ite ((fitFrame_firing s).accumulate quiet) quiet
  case killLatchSet =>
    have low : s.FitFrame { s.quiet with pins := { s.pins with killN := false } } := .of_part rfl
    exact next_eq hx ▸ .ite (.ite (low.trans (.killFall _)) low) quiet
  case resetRelease straps killN =>
    refine next_eq hx ▸ .ite quiet ?_
    unfold State.releaseReset
    exact .ite (.of_part rfl) (.after (.setLatch _) rfl)
  case busFreeStart => exact next_eq hx ▸ .ite (.of_part rfl) quiet
  case arbitrationLost => exact next_eq hx ▸ .ite (.of_part rfl) quiet
  case killNRise => exact next_eq hx ▸ .of_part rfl

end Sys2Proof.Machine

/-! ## The law of the fit (R37, R53 to R60, R110, R111, R122) -/

namespace Sys2Proof.Machine

/-! ### The law by rooms -/

/-- R53, R60: an entry of a QUOTE item has room for the shown value of its slot, which has one. -/
def State.RoomFits (s : State) (x : Nat × Nat × Nat) : Prop :=
  ∀ k, (s.item x.1).source = .quote k →
    ∃ v, (s.quote k).shown = some v ∧ s.quoteWidth (s.style x.2.1) v ≤ x.2.2

theorem State.entryFits_iff (s : State) (e : Nat × Placement) :
    s.entryFits e = true ↔ s.RoomFits (e.1, e.2.style, e.2.width) := by
  unfold State.entryFits State.RoomFits
  cases hsrc : (s.item e.1).source with
  | quote k => cases hv : (s.quote k).shown <;> simp [hv]
  | text head => simp
  | clock => simp

theorem State.fitLaw_iff (s : State) : s.FitLaw ↔ ∀ n, ∀ x ∈ (s.lane n).rooms, s.RoomFits x := by
  simp only [State.FitLaw, Lane.rooms_eq_map, List.forall_mem_map, State.entryFits_iff]

/-- R77, R119: a width is computed from the fonts and the width fields of the style. -/
theorem State.quoteWidth_congr {s t : State} (hf : t.fonts = s.fonts) {k k' : Style}
    (hk : k'.width = k.width) (v : QuoteValue) : t.quoteWidth k' v = s.quoteWidth k v := by
  unfold State.quoteWidth State.textWidth State.fontOf
  rw [hf, hk]

/-- An entry keeps its room where its item, the fonts, the width fields of its style and the shown values
are kept. -/
theorem State.RoomFits.of_same {s t : State} {x : Nat × Nat × Nat} (h : s.RoomFits x)
    (hi : t.item x.1 = s.item x.1) (hf : t.fonts = s.fonts)
    (hk : (t.style x.2.1).width = (s.style x.2.1).width)
    (hq : ∀ k, (t.quote k).shown = (s.quote k).shown) : t.RoomFits x := fun k hsrc => by
  rw [hi] at hsrc
  obtain ⟨v, hv, hw⟩ := h k hsrc
  exact ⟨v, (hq k).trans hv, (State.quoteWidth_congr hf hk v).symm ▸ hw⟩

/-- The fit law with what keeps it: each ring as long as its run, and the stores of quote slots and current
styles in their canonical form. -/
structure State.Fit (s : State) : Prop where
  room   : ∀ n, (s.lane n).placed.length ≤ (s.lane n).ring.length
  fits   : ∀ n, ∀ x ∈ (s.lane n).rooms, s.RoomFits x
  quotes : Store.wf QuoteSlot.initial s.quotes = true
  styles : Store.wf Style.builtIn s.styles.cur = true

theorem State.Fit.of_laws {s : State} (h : s.FitLaw) (hl : s.LaneLaw) (hs : s.StoreLaw) : s.Fit := by
  obtain ⟨_, _, hquotes, _, _, hcur, _⟩ := hs
  exact ⟨fun n => (hl.within n).placedRing, s.fitLaw_iff.mp h, hquotes, hcur⟩

theorem State.Fit.law {s : State} (h : s.Fit) : s.FitLaw := s.fitLaw_iff.mpr h.fits

theorem State.fitLaw_of_unplaced {s : State} (h : s.Unplaced) : s.FitLaw :=
  s.fitLaw_iff.mpr fun n x hx => by simp [Lane.rooms_of_unplaced (h n)] at hx

theorem State.Fit.of_frame {s t : State} (h : s.Fit) (k : s.FitFrame t) : t.Fit := by
  obtain ⟨hwf, hshown⟩ := k.shown h.quotes
  refine ⟨fun n => (k.runs n (h.room n)).1, fun n x hx => ?_, hwf, k.cur ▸ h.styles⟩
  refine (h.fits n x ((k.runs n (h.room n)).2 hx)).of_same ?_ k.fonts ?_ hshown
  · rw [State.item, k.items, ← State.item]
  · rw [State.style, k.cur, ← State.style]

/-! ### A step of a lane's work (R35 to R37, R43) -/

/-- A lane whose placed entries have room for what they show. -/
def State.LaneFits (s : State) (l : Lane) : Prop :=
  l.placed.length ≤ l.ring.length ∧ ∀ x ∈ l.rooms, s.RoomFits x

theorem State.LaneFits.keepsRun {s : State} {l l' : Lane} (h : s.LaneFits l) (k : l.KeepsRun l') :
    s.LaneFits l' := by
  obtain ⟨hroom, hfits⟩ := h
  obtain ⟨hroom', hsub⟩ := k hroom
  exact ⟨hroom', fun x hx => hfits x (hsub hx)⟩

/-- R35, R37: the placed entry joins the run at its end, with the entry of the ring that stands there. -/
theorem State.rooms_placeAt (s : State) {l : Lane} {e : Nat} (he : l.ring[l.placedCount]? = some e)
    (it : Item) (start : Int) : (s.placeAt l it start).rooms = l.rooms ++
      [(e, l.entryStyle it, s.sourceWidth (s.style (l.entryStyle it)) it.source)] := by
  obtain ⟨hlt, hget⟩ := List.getElem?_eq_some_iff.mp he
  have hring : l.ring = l.ring.take l.placedCount ++ e :: l.ring.drop (l.placedCount + 1) := by
    rw [← hget, ← List.drop_eq_getElem_cons hlt, List.take_append_drop]
  have hlen : (l.ring.take l.placedCount).length = (l.placed.map Placement.room).length := by
    rw [List.length_take_of_le (Nat.le_of_lt hlt), List.length_map, Lane.placedCount]
  have hold : l.rooms = (l.ring.take l.placedCount).zip (l.placed.map Placement.room) :=
    zip_congr_take (by simp [Lane.placedCount])
  have hnew : (s.placeAt l it start).rooms = l.ring.zip (l.placed.map Placement.room ++
      [(l.entryStyle it, s.sourceWidth (s.style (l.entryStyle it)) it.source)]) :=
    congrArg l.ring.zip List.map_append
  rw [hnew, hold]
  conv_lhs => rw [hring]
  rw [List.zip_append hlen, List.zip_cons_cons, List.zip_nil_right]

/-- R35 to R37: an entry that is not skipped is placed with the width it shows. -/
theorem State.LaneFits.placeAt {s : State} {l : Lane} (h : s.LaneFits l) {e : Nat}
    (he : l.ring[l.placedCount]? = some e) (hskip : ¬ s.skips (s.item e) = true) (start : Int) :
    s.LaneFits (s.placeAt l (s.item e) start) := by
  obtain ⟨_, hfits⟩ := h
  obtain ⟨hlt, _⟩ := List.getElem?_eq_some_iff.mp he
  refine ⟨?_, fun x hx => ?_⟩
  · simp only [State.placeAt, List.length_append, List.length_singleton]
    exact hlt
  rw [s.rooms_placeAt he, List.mem_append, List.mem_singleton] at hx
  rcases hx with hx | rfl
  · exact hfits x hx
  · intro k hsrc
    simp only [State.skips, hsrc] at hskip
    cases hv : (s.quote k).shown with
    | none => simp [hv] at hskip
    | some v => exact ⟨v, rfl, by simp only [State.sourceWidth, hsrc, hv, Nat.le_refl]⟩

theorem State.LaneFits.placeLoop {s : State} (floor : Int) :
    ∀ (u : Nat) {l : Lane}, s.LaneFits l → s.LaneFits (s.placeLoop floor u l).1
  | 0, _, h => h
  | u + 1, l, h => by
    unfold State.placeLoop
    split
    · exact h
    · split
      · exact h
      · rename_i e he
        obtain ⟨hlt, _⟩ := List.getElem?_eq_some_iff.mp he
        split
        · exact State.LaneFits.placeLoop floor u (h.keepsRun (.skipEntry l e _ hlt))
        · rename_i hskip
          split
          · exact h
          · exact State.LaneFits.placeLoop floor u (h.placeAt he hskip _)

theorem State.LaneFits.placePage {s : State} :
    ∀ (u : Nat) {l : Lane}, s.LaneFits l → s.LaneFits (s.placePage u l).1
  | 0, _, h => h
  | u + 1, l, h => by
    unfold State.placePage
    split
    · exact h
    · rename_i e he
      obtain ⟨hlt, _⟩ := List.getElem?_eq_some_iff.mp he
      split
      · exact State.LaneFits.placePage u (h.keepsRun (.skipEntry l e _ hlt))
      · rename_i hskip
        exact (h.placeAt he hskip 0).keepsRun (.of_run rfl rfl)

/-- R8, R28, R41: the place step alone brings in an entry, with the room it needs. -/
theorem Lane.Stepped.laneFits {s : State} {l l' : Lane} {w : LaneWork} (hs : Lane.Stepped s l w l')
    (h : s.LaneFits l) : s.LaneFits l' := by
  cases hs with
  | take => exact h.keepsRun (.takeApply l)
  | begin => exact h.keepsRun (.begin l)
  | advance => exact h.keepsRun (.advance l _)
  | rebase => exact h.keepsRun (.rebaseStep l _)
  | retire => exact h.keepsRun (.retireStep _ l _)
  | cross => exact h.keepsRun (.of_room rfl List.map_map)
  | placeStrip floor u => exact h.placeLoop floor u
  | placePage u => exact h.placePage u
  | envelope => exact h.keepsRun (.of_room rfl List.map_map)
  | drain => exact h.keepsRun (.drainCheck l)
  | fade => exact h.keepsRun (.fadeStep l)
  | off => exact h.keepsRun (.enterOff l)
  | keep => exact h

theorem State.Fit.laneStep {s : State} (h : s.Fit) (n : Fin 4) (w : LaneWork) :
    (s.laneStep n w).1.Fit := by
  have hf := s.laneStep_frame n w
  have same : ∀ x, s.RoomFits x → (s.laneStep n w).1.RoomFits x := fun x hx => by
    refine hx.of_same ?_ hf.fonts ?_ fun k => ?_
    · rw [State.item, hf.items, ← State.item]
    · rw [State.style, hf.styles, ← State.style]
    · rw [State.quote, hf.quotes, ← State.quote]
  have lane : ∀ m, s.LaneFits ((s.laneStep n w).1.lane m) := fun m => by
    by_cases hm : m = n
    · subst hm
      exact (s.laneStep_stepped m w).laneFits ⟨h.room m, h.fits m⟩
    · rw [hf.others m hm]
      exact ⟨h.room m, h.fits m⟩
  exact ⟨fun m => (lane m).1, fun m x hx => same x ((lane m).2 x hx), hf.quotes ▸ h.quotes,
    hf.styles ▸ h.styles⟩

/-! ### The other shares of a field start (R54 to R57, R122, R124) -/

/-- R121: the entry style of a placed entry is in use. -/
theorem State.styleInUse_of_room {s : State} {n : Fin 4} {x : Nat × Nat × Nat}
    (hx : x ∈ (s.lane n).rooms) : s.styleInUse x.2.1 = true := by
  rw [Lane.rooms_eq_map, List.mem_map] at hx
  obtain ⟨e, he, rfl⟩ := hx
  obtain ⟨_, hp⟩ := List.of_mem_zip he
  refine List.any_eq_true.mpr ⟨s.lane n, (Four.mem_toList _ _).mpr ⟨n, rfl⟩, ?_⟩
  rw [Bool.or_eq_true, List.any_eq_true]
  exact .inl ⟨e.2, hp, by simp⟩

/-- R122: the transfer of a style leaves the width fields of every style in use. -/
theorem State.style_transferStyle_width {s : State} (h : Store.wf Style.builtIn s.styles.cur = true)
    (k : Nat) {j : Nat} (hj : s.styleInUse j = true) :
    ((s.transferStyle k).style j).width = (s.style j).width := by
  simp only [State.style, State.transferStyle, Store.get_put h]
  split
  · rename_i hjk
    subst hjk
    simp only [Style.transferred, hj, if_true]
  · rfl

theorem State.Fit.transferStyle {s : State} (h : s.Fit) (k : Nat) : (s.transferStyle k).Fit where
  room := h.room
  fits := fun n x hx => (h.fits n x hx).of_same rfl rfl
    (State.style_transferStyle_width h.styles k (State.styleInUse_of_room hx)) fun _ => rfl
  quotes := h.quotes
  styles := Store.put_wf h.styles

theorem State.Fit.transferStyles {s : State} (h : s.Fit) : s.transferStyles.Fit :=
  List.foldlRecOn _ _ h fun _ ht k _ => ht.transferStyle k

/-- R55: the check passes when each entry that references the slot has room for the value. -/
theorem State.fits_iff (s : State) (k : Nat) (v : QuoteValue) :
    s.fits k v = true ↔ ∀ n, ∀ e ∈ (s.lane n).entries, (s.item e.1).source = .quote k →
      s.quoteWidth (s.style e.2.style) v ≤ e.2.width := by
  simp only [State.fits, State.references, List.all_eq_true, Four.mem_toList, Bool.or_eq_true,
    Bool.not_eq_true', decide_eq_false_iff_not, decide_eq_true_eq, forall_exists_index,
    forall_apply_eq_imp_iff, ← imp_iff_not_or]
  rfl

/-- R54 to R56: a check leaves the state where the value does not fit, and else takes it. -/
theorem State.checkSlot_eq {s : State} {k : Nat} {v : QuoteValue} (h : (s.quote k).pend = some v) :
    s.checkSlot k = if s.fits k v then s.transfer k v else s := by
  simp only [State.checkSlot, h]

/-- R57: each lane after a transfer. -/
theorem State.lane_transfer (s : State) (k : Nat) (v : QuoteValue) (n : Fin 4) :
    (s.transfer k v).lane n =
      s.strikeLane k v.status (tickDirection (s.quote k).shown v) (s.lane n) := by
  match n with
  | 0 => rfl
  | 1 => rfl
  | 2 => rfl
  | 3 => rfl

/-- R54 to R58: a value is shown only where every entry that shows it has room for it. -/
theorem State.Fit.checkSlot {s : State} (h : s.Fit) (k : Nat) : (s.checkSlot k).Fit := by
  cases hv : (s.quote k).pend with
  | none => simpa only [State.checkSlot, hv] using h
  | some v =>
    rw [State.checkSlot_eq hv]
    split
    case isFalse => exact h
    rename_i hfits
    rw [State.fits_iff] at hfits
    have run : ∀ n, (s.lane n).KeepsRun ((s.transfer k v).lane n) := fun n => by
      rw [s.lane_transfer k v n]
      exact .struck _ (s.strikeRun_struck _ _ _ _ _)
    refine ⟨fun n => (run n (h.room n)).1, fun n x hx j hsrc => ?_, Store.put_wf h.quotes, h.styles⟩
    have hx := (run n (h.room n)).2 hx
    rw [State.quote_transfer]
    by_cases hjk : j = k
    · rw [Lane.rooms_eq_map, List.mem_map] at hx
      obtain ⟨e, he, rfl⟩ := hx
      rw [if_pos hjk]
      exact ⟨v, rfl, hfits n e he (hjk ▸ hsrc)⟩
    · rw [if_neg hjk]
      exact h.fits n x hx j hsrc

theorem fit_firing : KeptByFiring State.Fit where
  clock := fun s _ h => h.of_frame ((fitFrame_firing s).clock s _ (.refl s))
  sched := fun s _ _ h => h.of_frame ((fitFrame_firing s).sched s _ _ (.refl s))
  raise := fun s _ h => h.of_frame ((fitFrame_firing s).raise s _ (.refl s))
  act := fun s a n h => h.of_frame (.actOnLane s a n)
  style := fun s n k h => h.of_frame ((fitFrame_firing s).style s n k (.refl s))

/-- R8, R54, R122, R124: every share of a field start keeps the law. -/
theorem State.Fit.takeShare {r : State × FieldWork} (h : r.1.Fit) (t : FieldTok) :
    (State.takeShare r t).1.Fit := by
  cases t with
  | styles => exact h.transferStyles
  | slot k => exact h.checkSlot k
  | lane n => exact h.laneStep n _
  | clock => exact fit_firing.accumulate h

theorem State.Fit.fieldShares {s : State} (h : s.Fit) (order : List FieldTok) :
    (s.fieldShares order).Fit := by
  obtain ⟨_, _, hf⟩ := State.fieldShares_induct (P := fun r => r.1.Fit) order h
    fun _ t _ hr => hr.takeShare t
  exact hf

/-! ### The items (R110, R111) -/

/-- The item of a placed entry stands in the ring, and counts as placed. -/
theorem State.room_item {s : State} {n : Fin 4} {x : Nat × Nat × Nat} (hx : x ∈ (s.lane n).rooms) :
    s.itemPlaced x.1 = true ∧ s.itemInRing x.1 = true := by
  rw [Lane.rooms_eq_map, List.mem_map] at hx
  obtain ⟨e, he, rfl⟩ := hx
  refine ⟨List.any_eq_true.mpr ⟨s.lane n, (Four.mem_toList _ _).mpr ⟨n, rfl⟩, ?_⟩,
    (s.itemInRing_iff _).mpr ⟨n, (List.of_mem_zip he).1⟩⟩
  exact List.any_eq_true.mpr ⟨e, he, by simp⟩

/-- An update of an item that no placed entry has. -/
theorem State.Fit.setItem {s : State} (h : s.Fit) {i : Nat} {it : Item}
    (hi : ∀ n, ∀ x ∈ (s.lane n).rooms, x.1 ≠ i)
    (hget : ∀ j, j ≠ i → (s.setItem i it).item j = s.item j) : (s.setItem i it).Fit where
  room := h.room
  fits := fun n x hx => (h.fits n x hx).of_same (hget _ (hi n x hx)) rfl rfl fun _ => rfl
  quotes := h.quotes
  styles := h.styles

theorem State.Fit.itemDefine {s : State} (h : s.Fit) (c : Command) : (itemDefineEffect c s).1.Fit := by
  refine orBadArg_induct h fun i _ => orBadArg_induct h fun it hit => ?_
  split
  · exact h
  · rename_i hplaced
    have hne : it ≠ Item.undefined := fun e => by
      have hdef := Command.itemRecord_defined hit
      rw [e] at hdef
      cases hdef
    refine h.setItem (fun n x hx e => hplaced (e ▸ (State.room_item hx).1)) fun j hj => ?_
    simp only [State.item, State.setItem_items, Store.get_put_of_ne hne, if_neg hj]

theorem State.Fit.itemDrop {s : State} (h : s.Fit) (c : Command) : (itemDropEffect c s).1.Fit := by
  refine orBadArg_induct h fun i _ => ?_
  split
  · exact h
  · rename_i hring
    split
    · exact h.setItem (fun n x hx e => hring (e ▸ (State.room_item hx).2)) fun j hj =>
        Store.get_put_default hj s.items
    · exact h

/-! ### Every step -/

theorem State.Fit.runIf {s : State} {isMine : Nat → Bool} {eff : Effect} (h : s.Fit)
    (heff : ∀ c, (eff c s.quiet).1.Fit) : (s.runIf isMine eff).Fit :=
  State.runIf_induct (h.of_frame (.of_part rfl)) (fun t e r ht => ht.of_frame (.complete t e r))
    fun e _ _ => heff e.command

/-- R42 to R44: PAGE_END is three steps of a lane's work. -/
theorem State.Fit.pageEnd {s t : State} (h : s.Fit) {n : Fin 4} (hx : exec (.pageEnd n) s = .next t) :
    t.Fit := by
  have quiet : s.quiet.Fit := h.of_frame (.of_part rfl)
  rw [← next_eq hx]
  split
  · exact ((quiet.laneStep n _).laneStep n _).laneStep n _
  · exact quiet

theorem State.Fit.fieldStart {s t : State} (h : s.Fit) {parity : Bool} {order : List FieldTok}
    (hx : exec (.fieldStart parity order) s = .next t) : t.Fit := by
  have head : (s.quiet.fieldHead parity).Fit := h.of_frame (.of_part rfl)
  rw [← next_eq hx]
  split
  · dsimp only
    split
    · exact head.fieldShares order
    · exact head
  · exact h.of_frame (.of_part rfl)

/-- Every command keeps the fit law, from a state that keeps the lane, device and store laws too. -/
theorem exec_fitLaw {i : Instr} {s t : State} (hfit : s.FitLaw) (hl : s.LaneLaw) (hd : s.DeviceLaw)
    (hs : s.StoreLaw) (hx : exec i s = .next t) : t.FitLaw := by
  have h : s.Fit := .of_laws hfit hl hs
  have quiet : s.quiet.Fit := h.of_frame (.of_part rfl)
  by_cases hdef : i = .itemDefine
  · subst hdef
    exact next_eq hx ▸ (h.runIf quiet.itemDefine).law
  by_cases hdrop : i = .itemDrop
  · subst hdrop
    exact next_eq hx ▸ (h.runIf quiet.itemDrop).law
  by_cases hfield : ∃ p o, i = .fieldStart p o
  · obtain ⟨p, o, rfl⟩ := hfield
    exact (h.fieldStart hx).law
  by_cases hpage : ∃ n, i = .pageEnd n
  · obtain ⟨n, rfl⟩ := hpage
    exact (h.pageEnd hx).law
  rcases exec_fitFrame hl hd hdef hdrop (fun p o e => hfield ⟨p, o, e⟩) (fun n e => hpage ⟨n, e⟩) hx
    with k | k
  · exact (h.of_frame k).law
  · exact State.fitLaw_of_unplaced k

/-- Settles O58: the place step alone places an entry, with the width it shows; the check of a slot takes
only a value that fits; the transfer of a style in use leaves its width fields; an item that is placed is
not redefined; and a load finds nothing placed. -/
theorem fitLawKept : Obligations.FitLawKept := by
  intro s t hfit hl hd hs hx
  cases hp : s.pending with
  | nil =>
    rw [step_of_idle hp] at hx
    exact next_eq hx ▸ hfit
  | cons c rest =>
    rw [step_of_pending hp] at hx
    exact exec_fitLaw (s := { s with pending := rest }) hfit hl hd hs hx

end Sys2Proof.Machine

/-! ## The transfer check of a quote slot (R54 to R58) -/

namespace Sys2Proof.Machine

/-- R57: a strike goes through the run entry by entry, each with its item of the ring. -/
theorem State.strikeRun_getElem? (s : State) (k : Nat) (status : QuoteStatus) (tick : Option Direction) :
    ∀ {ring : List Nat} {placed : List Placement} {j i : Nat} {p : Placement},
      ring[j]? = some i → placed[j]? = some p →
      (s.strikeRun k status tick ring placed)[j]? = some
        (if (s.item i).source = .quote k then
          { p with env := p.env.strike (s.style p.style) status tick }
        else p)
  | e :: ring, q :: placed, 0, i, p, hi, hp => by
    obtain rfl : e = i := Option.some.inj hi
    obtain rfl : q = p := Option.some.inj hp
    simp only [State.strikeRun, State.references, decide_eq_true_eq, List.getElem?_cons_zero]
  | e :: ring, q :: placed, j + 1, i, p, hi, hp => by
    rw [State.strikeRun, List.getElem?_cons_succ]
    exact State.strikeRun_getElem? s k status tick hi hp

theorem State.strikeRun_length (s : State) (k : Nat) (status : QuoteStatus) (tick : Option Direction)
    (ring : List Nat) (placed : List Placement) :
    (s.strikeRun k status tick ring placed).length = placed.length :=
  (s.strikeRun_struck k status tick ring placed).length_eq.symm

/-- R56, R57: the strike of a transfer by the status of the new value and the price it follows. -/
theorem Envelope.strike_tickDirection (e : Envelope) (k : Style) (shown : Option QuoteValue)
    (v : QuoteValue) :
    e.strike k v.status (tickDirection shown v) =
      match v.status, shown with
      | .normal, some o =>
        if o.price < v.price then e.trigger k .up
        else if v.price < o.price then e.trigger k .down
        else e
      | .normal, none => e
      | .halted, _ | .closed, _ => e.letGo := by
  cases hst : v.status with
  | halted => rfl
  | closed => rfl
  | normal =>
    cases shown with
    | none => rfl
    | some o =>
      simp only [Envelope.strike, tickDirection]
      by_cases hup : o.price < v.price
      · simp only [hup, if_true]
      · by_cases hdown : v.price < o.price <;> simp only [hup, hdown, if_true, if_false]

/-- Settles O47: the check is blocked or taken as the entries that reference the slot have room, and a
transfer strikes those entries alone. -/
theorem transferCheck : Obligations.TransferCheck := by
  intro s k v _ hv refers fits
  have hfits : s.fits k v = true ↔ fits := s.fits_iff k v
  rw [State.checkSlot_eq hv]
  refine ⟨fun h => if_neg (mt hfits.mp h), fun h => ⟨s.transfer k v, if_pos (hfits.mpr h), rfl, ?slot,
    fun j hj => ?others, fun m => ?lane⟩⟩
  case slot => rw [State.quote_transfer, if_pos rfl]
  case others => rw [State.quote_transfer, if_neg hj]
  case lane =>
    rw [s.lane_transfer k v m]
    refine ⟨rfl, s.strikeRun_length _ _ _ _ _, fun j i p hi hp => ?_⟩
    refine (s.strikeRun_getElem? _ _ _ hi hp).trans ?_
    rw [Envelope.strike_tickDirection] <;> rfl

end Sys2Proof.Machine

/-! ## Bytes: words, merges and the decoding of a quote (R47 to R50, R141, 12.3) -/

namespace Sys2Proof.Machine

/-! ### Words (00_scope.md, Byte order) -/

theorem leNat_four (a b c d : Byte) : BitVec.ofNat 32 (leNat [a, b, c, d]) = d ++ c ++ b ++ a := by
  refine BitVec.eq_of_toNat_eq ?_
  have h : ∀ (m n : Nat) (x : BitVec m) (y : BitVec n),
      (x ++ y).toNat = 2 ^ n * x.toNat + y.toNat := fun m n x y => by
    rw [BitVec.toNat_append, ← Nat.shiftLeft_add_eq_or_of_lt y.isLt, Nat.shiftLeft_eq, Nat.mul_comm]
  simp only [h, leNat, BitVec.toNat_ofNat]
  omega

/-- A word is its four bytes, the lowest address in the lowest place. -/
theorem wordAt_eq {bs : List Byte} {j : Nat} (h : 4 * j + 4 ≤ bs.length) :
    wordAt bs j =
      bs.getD (4 * j + 3) 0 ++ bs.getD (4 * j + 2) 0 ++ bs.getD (4 * j + 1) 0 ++ bs.getD (4 * j) 0 := by
  have hdrop : ∀ i, i < 4 → bs.drop (4 * j + i) = bs.getD (4 * j + i) 0 :: bs.drop (4 * j + i + 1) :=
    fun i hi => by
      have hlt : 4 * j + i < bs.length := by omega
      rw [List.drop_eq_getElem_cons hlt, List.getD_eq_getElem _ _ hlt]
  have h0 := hdrop 0 (by omega)
  rw [Nat.add_zero] at h0
  rw [wordAt, h0, hdrop 1 (by omega), hdrop 2 (by omega), hdrop 3 (by omega)]
  exact leNat_four _ _ _ _

/-! ### Merges (R47, R141) -/

/-- R47, R141: a merge of 16 byte lanes, byte by byte. -/
theorem mergeLanes_range (asm : List Byte) (lane : Nat → Option Byte) :
    mergeLanes asm ((List.range 16).map lane) =
      (asm.take 16).zipIdx.map fun x => (lane x.2).getD x.1 := by
  refine List.ext_getElem? fun i => ?_
  rw [mergeLanes_getElem?, List.getElem?_map, List.getElem?_map, List.getElem?_zipIdx,
    List.getElem?_take]
  by_cases hi : i < 16
  · rw [if_pos hi, List.getElem?_range hi, Nat.zero_add]
    cases asm[i]? <;> rfl
  · rw [if_neg hi, List.getElem?_eq_none (l := List.range 16) (by simpa using hi)]
    cases asm[i]? <;> rfl

theorem Beat.getD_lane (b : Beat) (i : Nat) (old : Byte) :
    (b.lane i).getD old = if b.enables.getLsbD i then b.data.extractLsb' (8 * i) 8 else old := by
  unfold Beat.lane
  split <;> rfl

/-- R47: the enabled bytes of a beat replace those of the assembly. -/
theorem mergeLanes_lanes (asm : List Byte) (b : Beat) :
    mergeLanes asm b.lanes = (asm.take 16).zipIdx.map fun x =>
      if b.enables.getLsbD x.2 then b.data.extractLsb' (8 * x.2) 8 else x.1 := by
  rw [Beat.lanes, mergeLanes_range]
  simp only [Beat.getD_lane]

/-- R141: word 6 is not merged. -/
theorem mergeLanes_dropWord6 (asm : List Byte) (b : Beat) :
    mergeLanes asm (dropWord6 b.lanes) = (asm.take 16).zipIdx.map fun x =>
      if b.enables.getLsbD x.2 = true ∧ ¬ (8 ≤ x.2 ∧ x.2 < 12) then b.data.extractLsb' (8 * x.2) 8
      else x.1 := by
  have hdrop : dropWord6 b.lanes =
      (List.range 16).map fun i => if 8 ≤ i ∧ i < 12 then none else b.lane i := rfl
  rw [hdrop, mergeLanes_range]
  refine List.map_congr_left fun x _ => ?_
  by_cases h6 : 8 ≤ x.2 ∧ x.2 < 12
  · simp [h6]
  · simp only [h6, if_false, not_false_eq_true, and_true, Beat.getD_lane]

/-- R48, R141: a beat touches its last word by one of four enables. -/
theorem Beat.touches_last (b : Beat) :
    b.touches 12 16 = (b.enables.getLsbD 12 || b.enables.getLsbD 13 || b.enables.getLsbD 14 ||
      b.enables.getLsbD 15) := by
  have h : b.touches 12 16 = [12, 13, 14, 15].any fun i => b.enables.getLsbD i := rfl
  rw [h]
  simp only [List.any_cons, List.any_nil, Bool.or_false, Bool.or_assoc]

/-! ### The value a commit decodes (R49, R50, 12.3) -/

theorem trimSpaces_eq_rdropWhile (cs : List Byte) : trimSpaces cs = cs.rdropWhile (· == 0x20) := rfl

/-- R50: a text is what stays of it without its trailing spaces, and the spaces. -/
theorem trimSpaces_append (cs : List Byte) : ∃ k, cs = trimSpaces cs ++ List.replicate k 0x20 := by
  refine ⟨(cs.rtakeWhile (· == 0x20)).length, ?_⟩
  have hspaces : cs.rtakeWhile (· == 0x20) =
      List.replicate (cs.rtakeWhile (· == 0x20)).length 0x20 :=
    List.eq_replicate_of_mem fun c hc => by simpa using List.mem_rtakeWhile_imp hc
  rw [← hspaces, trimSpaces_eq_rdropWhile, List.rdropWhile_append_rtakeWhile]

theorem trimSpaces_getLast? (cs : List Byte) : (trimSpaces cs).getLast? ≠ some 0x20 := fun h => by
  rw [trimSpaces_eq_rdropWhile] at h
  obtain ⟨hne, hlast⟩ := List.mem_getLast?_eq_getLast h
  exact List.rdropWhile_last_not _ _ hne (beq_iff_eq.mpr hlast.symm)

theorem mem_trimSpaces {cs : List Byte} {c : Byte} (h : c ∈ trimSpaces cs) : c ∈ cs := by
  obtain ⟨k, hk⟩ := trimSpaces_append cs
  rw [hk]
  exact List.mem_append_left _ h

/-- R50: the symbol is what stands before the first zero byte, without its trailing spaces. -/
theorem decodeSymbol_spec (asm : List Byte) :
    ∃ (k : Nat) (tail : List Byte),
      asm.take 8 = decodeSymbol asm ++ List.replicate k 0x20 ++ tail ∧
      (∀ c ∈ decodeSymbol asm, c ≠ 0) ∧ (decodeSymbol asm).getLast? ≠ some 0x20 ∧
      (tail = [] ∨ tail.head? = some 0) := by
  obtain ⟨k, hk⟩ := trimSpaces_append ((asm.take 8).takeWhile (· != 0))
  refine ⟨k, (asm.take 8).dropWhile (· != 0), ?_, fun c hc => ?_, trimSpaces_getLast? _, ?_⟩
  · rw [decodeSymbol, ← hk, List.takeWhile_append_dropWhile]
  · simpa using List.mem_takeWhile_imp (mem_trimSpaces hc)
  · have hhead := List.head?_dropWhile_not (· != 0) (asm.take 8)
    cases htail : (asm.take 8).dropWhile (· != 0) with
    | nil => exact .inl rfl
    | cons c t =>
      rw [htail] at hhead
      exact .inr (by simpa using hhead)

/-- R49: the status field. -/
theorem decodeStatus_eq (control : Word) :
    (bits control 27 2 = 0 → decodeStatus control = .normal) ∧
    (bits control 27 2 = 1 → decodeStatus control = .halted) ∧
    (2 ≤ bits control 27 2 → decodeStatus control = .closed) := by
  unfold decodeStatus
  refine ⟨fun h => by simp only [h], fun h => by simp only [h], fun h => ?_⟩
  split
  · omega
  · omega
  · rfl

theorem decodeDecimals_eq (control : Word) :
    decodeDecimals control = if 4 < bits control 24 3 then 4 else bits control 24 3 := by
  unfold decodeDecimals
  split <;> omega

end Sys2Proof.Machine

/-! ## Writes of the system port with the port free (R46 to R48, R51, R141, R144, R153 to R155) -/

namespace Sys2Proof.Machine

/-! ### The ranges of the aperture (R154) -/

theorem beatRange_command {anchor : Word} {addr k : Nat} (upper : Bool) (hk : k < 64)
    (h : addr = anchor.toNat + 32 * k + (if upper then 16 else 0)) :
    beatRange anchor addr = .command k upper := by
  unfold beatRange
  rw [if_neg (by omega)]
  dsimp only
  cases upper
  · simp only [Bool.false_eq_true, if_false] at h
    have ho : addr - anchor.toNat = 32 * k := by omega
    have hhalf : 32 * k / 16 % 2 = 0 := by omega
    rw [ho, if_pos (by omega), Nat.mul_div_cancel_left k (by decide), hhalf]
    rfl
  · simp only [if_true] at h
    have ho : addr - anchor.toNat = 32 * k + 16 := by omega
    have hhalf : (32 * k + 16) / 16 % 2 = 1 := by omega
    have hslot : (32 * k + 16) / 32 = k := by omega
    rw [ho, if_pos (by omega), hslot, hhalf]
    rfl

theorem beatRange_quote {anchor : Word} {addr k : Nat} (hk : k < 2048)
    (h : addr = anchor.toNat + 0x8000 + 16 * k) : beatRange anchor addr = .quote k := by
  unfold beatRange
  dsimp only
  have hslot : (addr - anchor.toNat - 0x8000) / 16 = k := by omega
  rw [if_neg (by omega), if_neg (by omega), if_pos (by omega), hslot]

theorem beatRange_unwatched {anchor : Word} {addr : Nat}
    (h : addr < anchor.toNat ∨ anchor.toNat + 0x10000 ≤ addr ∨
      (anchor.toNat + 0x800 ≤ addr ∧ addr < anchor.toNat + 0x8000)) :
    beatRange anchor addr = .unwatched := by
  unfold beatRange
  split
  · rfl
  · dsimp only
    rw [if_neg (by omega), if_neg (by omega)]

/-! ### The monitor by the range of the beat (R46, R47, R141, R165) -/

section
variable {s : State} {b : Beat} {k : Nat}

theorem State.monitor_command {upper : Bool} (h : beatRange s.conf.anchor b.addr = .command k upper)
    (hd : s.device ≠ .loading) : s.monitor b = s.setSlot k ((s.slot k).merge upper b) := by
  simp only [State.monitor, h, if_neg hd]

theorem State.monitor_quote (h : beatRange s.conf.anchor b.addr = .quote k) :
    s.monitor b = if s.device = .active then s.setQuote k ((s.quote k).takeBeat b) else s := by
  simp only [State.monitor, h]

theorem State.monitor_unwatched (h : beatRange s.conf.anchor b.addr = .unwatched) :
    s.monitor b = s := by
  simp only [State.monitor, h]

theorem State.closes_lower (h : beatRange s.conf.anchor b.addr = .command k false) :
    s.closes b = none := by
  simp only [State.closes, h, Bool.false_and, Bool.false_eq_true, if_false]

/-- R141: a beat that touches no byte of word 7 closes no command. -/
theorem State.closes_upper (h : beatRange s.conf.anchor b.addr = .command k true)
    (ht : b.touches 12 16 = false) : s.closes b = none := by
  simp only [State.closes, h, ht, Bool.and_false, Bool.false_and, Bool.false_eq_true, if_false]

theorem State.closes_quote (h : beatRange s.conf.anchor b.addr = .quote k) : s.closes b = none := by
  simp only [State.closes, h]

theorem State.closes_unwatched (h : beatRange s.conf.anchor b.addr = .unwatched) :
    s.closes b = none := by
  simp only [State.closes, h]

end

/-! ### The beats of a transaction (R51, R144) -/

/-- R144: the beats of a transaction drive nothing and leave what the port holds. -/
theorem State.takeBeats_port (s : State) (bs : List Beat) :
    (s.takeBeats bs).state.out = s.out ∧ (s.takeBeats bs).state.port = s.port :=
  have hkept : KeptByBeats fun t => t.out = s.out ∧ t.port = s.port := {
    monitor := fun t b h => by
      unfold State.monitor
      split
      · split <;> exact h
      · split <;> exact h
      · exact h
    settle := fun t n c d h => by
      cases d with
      | answer r =>
        rw [State.settle, State.handOver_eq]
        exact h
      | append | discard | hold => exact h }
  hkept.takeBeats bs ⟨rfl, rfl⟩

/-- The beats behind a transaction's first part. -/
def Taken.left (t : Taken) : List Beat := (t.rest.map Prod.fst).getD []

/-- R51: the beats that pass and those that are held are the transaction's, in their order. -/
theorem State.takeBeats_beats : ∀ (bs : List Beat) (s : State),
    (s.takeBeats bs).passed ++ (s.takeBeats bs).left = bs
  | [], _ => rfl
  | b :: bs, s => by
    unfold State.takeBeats
    split
    · exact congrArg (b :: ·) (State.takeBeats_beats bs _)
    · dsimp only
      split
      · rfl
      · exact congrArg (b :: ·) (State.takeBeats_beats bs _)

/-- R51, R144: a transaction does what its first beat does and then what the others do; held at its first
beat, it is held whole. -/
theorem State.takeBeats_cons (s : State) (b : Beat) :
    (∃ need, ∀ bs,
      s.takeBeats (b :: bs) = { state := s, passed := [], rest := some (b :: bs, need) }) ∨
    ∃ u : State, ∀ bs, s.takeBeats (b :: bs) =
      { u.takeBeats bs with passed := b :: (u.takeBeats bs).passed } := by
  cases hc : s.closes b with
  | none => exact .inr ⟨s.monitor b, fun bs => by simp only [State.takeBeats, hc]⟩
  | some n =>
    cases hd : s.decideClosing n (s.closingCommand n b) with
    | hold need => exact .inl ⟨need, fun bs => by simp only [State.takeBeats, hc, hd]⟩
    | append | answer | discard =>
      exact .inr ⟨(s.monitor b).settle n (s.closingCommand n b)
        (s.decideClosing n (s.closingCommand n b)), fun bs => by simp only [State.takeBeats, hc, hd]⟩

theorem State.takeBeats_unclosed {s : State} {b : Beat} (h : s.closes b = none) :
    s.takeBeats [b] = { state := s.monitor b, passed := [b], rest := none } := by
  simp only [State.takeBeats, h]

/-! ### The transaction (R153, R155) -/

section
variable {s : State} {size : BeatSize} {beats : List Beat} {replies : List MemResp}

/-- R153: a write that the free port takes. -/
theorem exec_systemWrite_of_free (hr : s.pins.resetN = true) (hp : s.PortFree) :
    exec (.systemWrite { size := size, beats := beats, replies := replies }) s = .next
      (((s.quiet.takeBeats beats).pass size false replies).takeWaiting []) := by
  obtain ⟨hheld, hwait⟩ := hp
  have hqueue : s.quiet.port.waiting ++ [SysTxn.write ⟨size, beats, replies⟩] =
      [.write ⟨size, beats, replies⟩] := by simp [hwait]
  have hopen : ¬ s.quiet.port.held.isSome = true := by simp [hheld]
  exact congrArg Host.Outcome.next
    ((if_pos hr).trans ((congrArg s.quiet.takeWaiting hqueue).trans (if_neg hopen)))

variable {t : State} {passed : List Beat}

/-- What the port holds and what it drives before a transaction's parts are sent. -/
theorem State.PortFree.of_takeBeats {rest : Option (List Beat × HoldNeed)} (hp : s.PortFree)
    (h : s.quiet.takeBeats beats = { state := t, passed := passed, rest := rest }) :
    t.out = [] ∧ t.port = { held := none, waiting := [] } := by
  obtain ⟨hout, hport⟩ := s.quiet.takeBeats_port beats
  rw [h] at hout hport
  obtain ⟨hheld, hwait⟩ := hp
  refine ⟨hout, hport.trans ?_⟩
  rw [← hheld, ← hwait]
  rfl

/-- R153: a write of which no beat is held is carried to memory as one, and memory's response returns. -/
theorem exec_systemWrite_of_all (hr : s.pins.resetN = true) (hp : s.PortFree)
    (h : s.quiet.takeBeats beats = { state := t, passed := passed, rest := none }) :
    exec (.systemWrite { size := size, beats := beats, replies := replies }) s =
      .next { t with out := passBeats size passed false replies } := by
  obtain ⟨hout, hport⟩ := hp.of_takeBeats h
  rw [exec_systemWrite_of_free hr hp, h, Taken.pass_of_all, State.takeWaiting, hout, hport,
    List.nil_append]

/-- R144: a write that is held at its first beat drives nothing. -/
theorem exec_systemWrite_of_held {rest : List Beat} {need : HoldNeed} (hr : s.pins.resetN = true)
    (hp : s.PortFree)
    (h : s.quiet.takeBeats beats = { state := t, passed := [], rest := some (rest, need) }) :
    exec (.systemWrite { size := size, beats := beats, replies := replies }) s = .next
      { t with port :=
          { held := some { size := size, beats := rest, need := need, priorErr := false,
                           replies := replies }
            waiting := [] } } := by
  rw [exec_systemWrite_of_free hr hp, h]
  rfl

/-- R144, R155: a write that is held at a later beat has the beats before it carried to memory. -/
theorem exec_systemWrite_of_part {b : Beat} {rest : List Beat} {need : HoldNeed}
    (hr : s.pins.resetN = true) (hp : s.PortFree)
    (h : s.quiet.takeBeats beats = { state := t, passed := b :: passed, rest := some (rest, need) }) :
    exec (.systemWrite { size := size, beats := beats, replies := replies }) s = .next
      { t with
        out := [.memWrite .system size (b :: passed)]
        port :=
          { held := some { size := size, beats := rest, need := need,
                           priorErr := decide (replies.headD .okay = .error), replies := replies.tail }
            waiting := [] } } := by
  obtain ⟨hout, _⟩ := hp.of_takeBeats h
  rw [exec_systemWrite_of_free hr hp, h]
  refine congrArg Host.Outcome.next ?_
  cases replies with
  | nil => simp [Taken.pass, State.emitWrite, State.emit, State.takeWaiting, nextReply, hout]
  | cons r rs =>
    cases r <;> simp [Taken.pass, State.emitWrite, State.emit, State.takeWaiting, nextReply, hout]

/-- R46, R153: a write of one beat that closes no command is merged by the monitor and passes. -/
theorem exec_systemWrite_unclosed {b : Beat} (hr : s.pins.resetN = true) (hp : s.PortFree)
    (hc : s.quiet.closes b = none) :
    exec (.systemWrite { size := size, beats := [b], replies := replies }) s = .next
      { s.quiet.monitor b with
        out := [.memWrite .system size [b], .sysWriteResp (replies.headD .okay)] } :=
  exec_systemWrite_of_all hr hp (State.takeBeats_unclosed hc)

end

/-- Settles O20: the beat is merged and, where it touches word 3, committed; the decoding byte by byte. -/
theorem quoteWrite : Obligations.QuoteWrite := by
  refine ⟨?beat, ?decode⟩
  case beat =>
    intro s size b k replies hair hfree hk haddr q asm commits
    obtain ⟨hr, hd⟩ := hair
    have hrange : beatRange s.quiet.conf.anchor b.addr = .quote k := beatRange_quote hk haddr
    have hslot : (s.quote k).takeBeat b =
        { q with asm := asm, pend := if commits then some (decodeQuote asm) else q.pend } := by
      simp only [QuoteSlot.takeBeat, mergeLanes_lanes, Beat.touches_last]
      rfl
    rw [exec_systemWrite_unclosed hr hfree (State.closes_quote hrange), State.monitor_quote hrange,
      if_pos (show s.quiet.device = .active from hd), ← hslot]
    rfl
  case decode =>
    intro asm hlen v word control
    have hcontrol : wordAt asm 3 = control := wordAt_eq (by omega)
    have hprice : wordAt asm 2 = word 8 := wordAt_eq (by omega)
    obtain ⟨hnormal, hhalted, hclosed⟩ := decodeStatus_eq control
    simp only [v, decodeQuote, hcontrol, hprice]
    exact ⟨trivial, trivial, decodeDecimals_eq control, hnormal, hhalted, hclosed, trivial,
      decodeSymbol_spec asm⟩

end Sys2Proof.Machine

/-! ## Writes that close no command, and transactions beat by beat (R46, R51, R141, R144, R153 to R155) -/

namespace Sys2Proof.Machine

section
variable {s s1 s2 : State} {size : BeatSize} {b : Beat} {bs : List Beat} {replies : List MemResp}

/-- R141: in LOADING a write of any length passes unread. -/
theorem exec_systemWrite_loading (hr : s.pins.resetN = true) (hp : s.PortFree)
    (hd : s.device = .loading) :
    exec (.systemWrite { size := size, beats := bs, replies := replies }) s =
      .next { s with out := passBeats size bs false replies } := by
  have hbeats := State.takeBeats_of_loading (s := s.quiet) hd bs
  exact exec_systemWrite_of_all (t := s.quiet) hr hp hbeats

/-- R46, R153: a beat of which the monitor takes nothing passes unread. -/
theorem exec_systemWrite_unread (hr : s.pins.resetN = true) (hp : s.PortFree)
    (hc : s.quiet.closes b = none) (hm : s.quiet.monitor b = s.quiet) :
    exec (.systemWrite { size := size, beats := [b], replies := replies }) s = .next
      { s with out := [.memWrite .system size [b], .sysWriteResp (replies.headD .okay)] } := by
  rw [exec_systemWrite_unclosed hr hp hc, hm]
  rfl

/-- R51, R144: what a write of the first beat alone does, and what the same write with further beats does:
held at its first beat it is held whole, and else the others are taken where the first left off. -/
theorem exec_systemWrite_first (hr : s.pins.resetN = true) (hp : s.PortFree)
    (hx : exec (.systemWrite { size := size, beats := [b], replies := replies }) s = .next s1) :
    (∃ h : Held, s1.port = { held := some h, waiting := [] } ∧
      ∀ bs, exec (.systemWrite { size := size, beats := b :: bs, replies := replies }) s =
        .next { s1 with port := { held := some { h with beats := b :: bs }, waiting := [] } }) ∨
    (s1.pins.resetN = true ∧ s1.PortFree ∧ ∀ bs, s.quiet.takeBeats (b :: bs) =
      { s1.quiet.takeBeats bs with passed := b :: (s1.quiet.takeBeats bs).passed }) := by
  rcases s.quiet.takeBeats_cons b with ⟨need, hbeats⟩ | ⟨u, hbeats⟩
  · left
    obtain rfl := next_eq ((exec_systemWrite_of_held hr hp (hbeats [])).symm.trans hx)
    exact ⟨_, rfl, fun bs => exec_systemWrite_of_held (t := s.quiet) hr hp (hbeats bs)⟩
  · right
    have hone : s.quiet.takeBeats [b] = { state := u, passed := [b], rest := none } := hbeats []
    obtain ⟨hout, hport⟩ := hp.of_takeBeats hone
    obtain rfl := next_eq ((exec_systemWrite_of_all hr hp hone).symm.trans hx)
    have hquiet : State.quiet { u with out := passBeats size [b] false replies } = u := by
      rw [State.quiet, ← hout]
    have hpins : u.pins = s.pins := by
      have hframe := State.PortFrame.takeBeats [b] s.quiet
      rw [hone] at hframe
      exact hframe.pins
    refine ⟨hpins ▸ hr, ⟨?_, ?_⟩, fun bs => by rw [hquiet]; exact hbeats bs⟩
    · exact congrArg SysPort.held hport
    · exact congrArg SysPort.waiting hport

/-- R51, R144, R155: the first beat passes; then the others, all or up to one that is held. -/
theorem exec_systemWrite_rest (hr : s.pins.resetN = true) (hp : s.PortFree)
    (hr1 : s1.pins.resetN = true) (hp1 : s1.PortFree)
    (hbeats : s.quiet.takeBeats (b :: bs) =
      { s1.quiet.takeBeats bs with passed := b :: (s1.quiet.takeBeats bs).passed })
    (hx : exec (.systemWrite { size := size, beats := bs, replies := replies }) s1 = .next s2) :
    (s2.port.held = none → exec (.systemWrite { size := size, beats := b :: bs, replies := replies }) s =
      .next { s2 with
        out := [.memWrite .system size (b :: bs), .sysWriteResp (replies.headD .okay)] }) ∧
    ∀ h : Held, s2.port.held = some h → ∃ ahead : List Beat, bs = ahead ++ h.beats ∧
      exec (.systemWrite { size := size, beats := b :: bs, replies := replies }) s = .next
        { s2 with
          out := [.memWrite .system size (b :: ahead)]
          port :=
            { held := some { h with priorErr := decide (replies.headD .okay = .error)
                                    replies := replies.tail }
              waiting := [] } } := by
  have hall := s1.quiet.takeBeats_beats bs
  cases ht : s1.quiet.takeBeats bs with
  | mk t passed rest =>
    rw [ht] at hbeats hall
    obtain ⟨_, hport⟩ := hp1.of_takeBeats ht
    cases rest with
    | none =>
      obtain rfl : passed = bs := (List.append_nil passed).symm.trans hall
      obtain rfl := next_eq ((exec_systemWrite_of_all hr1 hp1 ht).symm.trans hx)
      refine ⟨fun _ => exec_systemWrite_of_all hr hp hbeats, fun h hh => ?_⟩
      rw [show t.port.held = none from congrArg SysPort.held hport] at hh
      cases hh
    | some r =>
      obtain ⟨left, need⟩ := r
      have hlong := exec_systemWrite_of_part (size := size) (replies := replies) hr hp hbeats
      cases passed with
      | nil =>
        obtain rfl := next_eq ((exec_systemWrite_of_held hr1 hp1 ht).symm.trans hx)
        refine ⟨nofun, fun h hh => ?_⟩
        obtain rfl := Option.some.inj hh
        exact ⟨[], hall.symm, hlong⟩
      | cons c passed =>
        obtain rfl := next_eq ((exec_systemWrite_of_part hr1 hp1 ht).symm.trans hx)
        refine ⟨nofun, fun h hh => ?_⟩
        obtain rfl := Option.some.inj hh
        exact ⟨c :: passed, hall.symm, hlong⟩

end

/-- Settles O21: the monitor by the range of the beat; in LOADING nothing is taken; of several beats the
first, then the rest. -/
theorem writesPass : Obligations.WritesPass := by
  intro s size b replies hr hp sent write base merged
  have command : ∀ {k : Nat} {upper : Bool}, s.device ≠ .loading →
      beatRange s.conf.anchor b.addr = .command k upper → s.quiet.closes b = none →
      write [b] s = .next (sent (s.setSlot k ((s.slot k).merge upper b)) [b]) :=
    fun hd hrange hc => by
      refine (exec_systemWrite_unclosed hr hp hc).trans ?_
      rw [State.monitor_command (s := s.quiet) hrange hd]
      rfl
  refine ⟨fun k hk hd haddr => ?lower, fun k hk hd haddr hword7 => ?upper, fun k hk hd haddr => ?quote,
    fun haddr => ?unwatched, fun bs => ⟨fun hd => ?loading, fun _ s1 hx => ?several⟩⟩
  case lower =>
    have hrange : beatRange s.conf.anchor b.addr = .command k false := beatRange_command false hk haddr
    rw [command hd hrange (State.closes_lower (s := s.quiet) hrange)]
    simp only [CommandSlot.merge, Bool.false_eq_true, if_false, mergeLanes_lanes, merged, true_or,
      and_true]
  case upper =>
    have hrange : beatRange s.conf.anchor b.addr = .command k true := beatRange_command true hk haddr
    have htouch : b.touches 12 16 = false := by
      rw [Beat.touches_last, hword7 12 (by decide) (by decide), hword7 13 (by decide) (by decide),
        hword7 14 (by decide) (by decide), hword7 15 (by decide) (by decide)]
      rfl
    rw [command hd hrange (State.closes_upper (s := s.quiet) hrange htouch)]
    simp only [CommandSlot.merge, if_true, mergeLanes_dropWord6, merged, Bool.false_eq_true, false_or]
  case quote =>
    have hrange : beatRange s.quiet.conf.anchor b.addr = .quote k := beatRange_quote hk haddr
    exact exec_systemWrite_unread hr hp (State.closes_quote hrange)
      ((State.monitor_quote hrange).trans (if_neg hd))
  case unwatched =>
    have hrange : beatRange s.quiet.conf.anchor b.addr = .unwatched := beatRange_unwatched haddr
    exact exec_systemWrite_unread hr hp (State.closes_unwatched hrange) (State.monitor_unwatched hrange)
  case loading => exact exec_systemWrite_loading hr hp hd
  case several =>
    rcases exec_systemWrite_first hr hp hx with ⟨h, hport, hlong⟩ | ⟨hr1, hp1, hbeats⟩
    · have hheld : s1.port.held = some h := congrArg SysPort.held hport
      refine ⟨fun h' hh => ?_, fun hnone => absurd (hheld.symm.trans hnone) nofun⟩
      obtain rfl := Option.some.inj (hheld.symm.trans hh)
      exact hlong bs
    · refine ⟨fun h hh => absurd (hp1.1.symm.trans hh) nofun, fun _ s2 hx2 => ?_⟩
      exact exec_systemWrite_rest hr hp hr1 hp1 (hbeats bs) hx2

end Sys2Proof.Machine

/-! ## Texts, glyph runs and widths (R66, R76 to R80, R114) -/

namespace Sys2Proof

theorem Four.getElem?_toList {α : Type} (f : Four α) (n : Fin 4) :
    f.toList[n.val]? = some (f.get n) := by
  match n with
  | 0 => rfl
  | 1 => rfl
  | 2 => rfl
  | 3 => rfl

end Sys2Proof

namespace Sys2Proof.Machine

/-! ### The font of a style (R66, R119) -/

theorem State.fontOf_getElem? (s : State) {k : Style} (h : k.width.font < 4) :
    [s.fonts.e0, s.fonts.e1, s.fonts.e2, s.fonts.e3][k.width.font]? = some (s.fontOf k) := by
  have hfont : four? k.width.font = some ⟨k.width.font, h⟩ := four?_eq_some.mpr rfl
  rw [State.fontOf, hfont]
  exact Four.getElem?_toList s.fonts ⟨k.width.font, h⟩

/-! ### The text of a chain (R114) -/

theorem State.head?_chain (s : State) (fuel head : Nat) :
    (s.chain (fuel + 1) head).head? = some head := rfl

theorem State.length_chain_le (s : State) : ∀ fuel head : Nat, (s.chain fuel head).length ≤ fuel
  | 0, _ => Nat.le_refl 0
  | fuel + 1, head => by
    cases hnext : (s.segment head).next with
    | none => simp [State.chain, hnext]
    | some k => simpa [State.chain, hnext] using State.length_chain_le s fuel k

/-- R114: behind a segment read stands the one its link names, and none where it names none. -/
theorem State.chain_getElem?_succ (s : State) : ∀ {fuel head i k : Nat},
    (s.chain fuel head)[i]? = some k → i + 1 < fuel →
      (s.chain fuel head)[i + 1]? = (s.segment k).next
  | 0, _, _, _, _, hi => absurd hi (Nat.not_lt_zero _)
  | 1, _, _, _, _, hi => by omega
  | fuel + 2, head, 0, k, h, _ => by
    obtain rfl : head = k := Option.some.inj h
    cases hnext : (s.segment head).next <;> simp [State.chain, hnext]
  | fuel + 2, head, i + 1, k, h, hi => by
    rw [State.chain, List.getElem?_cons_succ] at h ⊢
    cases hnext : (s.segment head).next with
    | none => rw [hnext] at h; cases h
    | some k' =>
      rw [hnext] at h
      exact State.chain_getElem?_succ s h (by omega)

/-! ### Digits and the clock's text (R76, R78) -/

theorem digitCode_toNat {d : Nat} (h : d < 10) : (digitCode d).toNat = 0x30 + d := by
  simp only [digitCode, BitVec.toNat_ofNat]
  omega

/-- A code that no digit has: the colon, the comma, the point. -/
theorem digitCode_ne {d : Nat} (h : d < 10) {c : Byte} (hc : c.toNat < 0x30 ∨ 0x39 < c.toNat) :
    digitCode d ≠ c := fun he => by
  have hd := digitCode_toNat h
  rw [he] at hd
  omega

/-! ### Glyph runs (R66, R76, R77, R79) -/

/-- R66: in a run that lets each code take its room, the glyph of a code lies where the rooms before it
end. -/
theorem getElem?_of_rooms {lay : Nat → List Byte → List GlyphPlace} {place : Byte → Nat → GlyphPlace}
    {room : Byte → Nat} (hnil : ∀ pos, lay pos [] = [])
    (hcons : ∀ pos c t, lay pos (c :: t) = place c pos :: lay (pos + room c) t) :
    ∀ (text : List Byte) (pos i : Nat),
      (lay pos text)[i]? = text[i]?.map fun c => place c (pos + ((text.take i).map room).sum)
  | [], pos, i => by rw [hnil]; rfl
  | c :: t, pos, 0 => by rw [hcons]; rfl
  | c :: t, pos, i + 1 => by
    rw [hcons, List.getElem?_cons_succ, List.getElem?_cons_succ, List.take_succ_cons, List.map_cons,
      List.sum_cons, ← Nat.add_assoc]
    exact getElem?_of_rooms hnil hcons t _ i

/-- R76, R77: the run of a text. -/
theorem Font.layout_getElem? (f : Font) (pos i : Nat) (text : List Byte) :
    (f.layout pos text)[i]? = text[i]?.map fun c =>
      { code := f.drawn c, pos := pos + ((text.take i).map f.advance).sum, advance := f.advance c } :=
  getElem?_of_rooms (place := fun c pos => { code := f.drawn c, pos := pos, advance := f.advance c })
    (fun _ => rfl) (fun _ _ _ => rfl) text pos i

/-- R79: the room of a code in the clock, a digit's cell or the colon's advance. -/
def Font.cell (f : Font) (c : Byte) : Nat := if c = 0x3A then f.advance 0x3A else f.digitCell

theorem Font.cell_digitCode (f : Font) {d : Nat} (h : d < 10) : f.cell (digitCode d) = f.digitCell :=
  if_neg (digitCode_ne h (.inr (by decide)))

/-- R79: a digit stands in the middle of its cell; the colon, whose room is its advance, fills it. -/
theorem Font.clockLayout_cons (f : Font) (pos : Nat) (c : Byte) (t : List Byte) :
    f.clockLayout pos (c :: t) =
      { code := f.drawn c, pos := pos + (f.cell c - f.advance c) / 2, advance := f.advance c } ::
        f.clockLayout (pos + f.cell c) t := by
  rw [Font.clockLayout, Font.cell]
  by_cases hc : c = 0x3A
  · subst hc
    simp
  · simp only [if_neg hc]

/-- R79: the run of the clock. -/
theorem Font.clockLayout_getElem? (f : Font) (pos i : Nat) (text : List Byte) :
    (f.clockLayout pos text)[i]? = text[i]?.map fun c =>
      { code := f.drawn c
        pos := pos + ((text.take i).map f.cell).sum + (f.cell c - f.advance c) / 2
        advance := f.advance c } :=
  getElem?_of_rooms (fun _ => rfl) f.clockLayout_cons text pos i

/-! ### Widths (R77, R79, R80) -/

theorem Font.textAdvance_eq_sum (f : Font) : ∀ text : List Byte,
    f.textAdvance text = (text.map f.advance).sum
  | [] => rfl
  | c :: t => congrArg (f.advance c + ·) (Font.textAdvance_eq_sum f t)

theorem Font.clockAdvance_eq_sum (f : Font) : ∀ text : List Byte,
    f.clockAdvance text = (text.map f.cell).sum
  | [] => rfl
  | c :: t => by
    rw [Font.clockAdvance, Font.clockAdvance_eq_sum f t, List.map_cons, List.sum_cons, Font.cell]
    by_cases hc : c = 0x3A
    · rw [if_pos hc, if_pos hc, hc]
    · rw [if_neg hc, if_neg hc]

/-- R79: the digit cell bounds 0 and the advances of the ten digits, and is one of them. -/
theorem Font.max?_digitCell (f : Font) :
    (0 :: (List.range 10).map fun d => f.advance (digitCode d)).max? = some f.digitCell := rfl

theorem Font.advance_digitCode_le (f : Font) {d : Nat} (h : d < 10) :
    f.advance (digitCode d) ≤ f.digitCell :=
  (List.max?_eq_some_iff.mp f.max?_digitCell).2 _
    (List.mem_cons_of_mem _ (List.mem_map_of_mem (List.mem_range.mpr h)))

theorem Font.exists_advance_eq_digitCell (f : Font) :
    ∃ d, d < 10 ∧ f.advance (digitCode d) = f.digitCell := by
  rcases List.mem_cons.mp (List.max?_eq_some_iff.mp f.max?_digitCell).1 with hzero | hmem
  · exact ⟨0, by decide, by have := f.advance_digitCode_le (d := 0) (by decide); omega⟩
  · obtain ⟨d, hd, he⟩ := List.mem_map.mp hmem
    exact ⟨d, List.mem_range.mp hd, he⟩

/-- R125: the digits of a BCD byte. -/
theorem bcdDigits_iff (b : Byte) : bcdDigits b = true ↔ b.toNat / 16 < 10 ∧ b.toNat % 16 < 10 := by
  simp only [bcdDigits, Bool.and_eq_true, decide_eq_true_eq]
  omega

theorem Font.sum_cell_bcd (f : Font) {b : Byte} (h : bcdDigits b = true) :
    (([digitCode (b.toNat / 16), digitCode (b.toNat % 16)] : List Byte).map f.cell).sum =
      2 * f.digitCell := by
  obtain ⟨hhigh, hlow⟩ := (bcdDigits_iff b).mp h
  simp only [List.map_cons, List.map_nil, List.sum_cons, List.sum_nil, f.cell_digitCode hhigh,
    f.cell_digitCode hlow]
  omega

/-- R79: the cells and colons of a valid time, the same at every time. -/
theorem Font.clockAdvance_clockText (f : Font) {t : TimeOfDay} (h : t.valid = true) (seconds : Bool) :
    f.clockAdvance (clockText t seconds) =
      (if seconds then 6 else 4) * f.digitCell + (if seconds then 2 else 1) * f.advance 0x3A := by
  simp only [TimeOfDay.valid, Bool.and_eq_true] at h
  obtain ⟨⟨⟨⟨⟨hhours, hminutes⟩, hseconds⟩, -⟩, -⟩, -⟩ := h
  have hcolon : ∀ t, (((0x3A : Byte) :: t).map f.cell).sum = f.advance 0x3A + (t.map f.cell).sum :=
    fun _ => rfl
  rw [Font.clockAdvance_eq_sum, clockText]
  cases seconds <;>
    simp only [List.map_append, List.sum_append, hcolon, f.sum_cell_bcd hhours,
      f.sum_cell_bcd hminutes, f.sum_cell_bcd hseconds, List.map_nil, List.sum_nil, if_true,
      Bool.false_eq_true, if_false] <;>
    omega

/-! ### The statement -/

/-- Settles O34, from the runs, the chain and the widths above. -/
theorem glyphRunsAndWidths : Obligations.GlyphRunsAndWidths := by
  refine ⟨fun f pos i text => f.layout_getElem? pos i text, fun d => digitCode_toNat, ?clock, ?chain,
    ?widths⟩
  case clock =>
    intro t seconds
    cases seconds <;> rfl
  case chain =>
    intro s head
    exact ⟨s.head?_chain 9 head, s.length_chain_le 10 head, fun i k => s.chain_getElem?_succ,
      List.flatMap_def⟩
  case widths =>
    intro s k
    refine ⟨s.fontOf_getElem?, fun _ => rfl, ?quote, ?text, ?minimum, fun _ => Font.advance_digitCode_le _,
      Font.exists_advance_eq_digitCell _, ?valid, fun i => Font.clockLayout_getElem? _ _ i _⟩
    case quote =>
      intro q v hv
      simp only [State.sourceRun, State.sourceWidth, hv, and_self]
    case text =>
      intro head
      rw [State.sourceWidth, State.textWidth, Font.textAdvance_eq_sum]
    case minimum =>
      intro v
      rw [State.quoteWidth, State.textWidth, Font.textAdvance_eq_sum]
    case valid =>
      intro hv
      rw [State.sourceWidth, State.clockWidth, Font.clockAdvance_clockText _ hv, Nat.add_assoc]

end Sys2Proof.Machine

/-! ## The text of a quote (R68 to R75) -/

namespace Sys2Proof.Machine

/-! ### Digits and the number they write -/

/-- R76: the codes of the ten digits. -/
def IsDigit (c : Byte) : Prop := 0x30 ≤ c.toNat ∧ c.toNat ≤ 0x39

theorem isDigit_digitCode {d : Nat} (h : d < 10) : IsDigit (digitCode d) := by
  rw [IsDigit, digitCode_toNat h]
  omega

theorem IsDigit.ne {c x : Byte} (h : IsDigit c) (hx : x.toNat < 0x30 ∨ 0x39 < x.toNat) : c ≠ x := by
  obtain ⟨hlow, hhigh⟩ := h
  rintro rfl
  omega

/-- The number that a row of digits writes. -/
def digitsValue (cs : List Byte) : Nat := cs.foldl (fun a c => 10 * a + (c.toNat - 0x30)) 0

theorem digitsValue_concat (cs : List Byte) {d : Nat} (h : d < 10) :
    digitsValue (cs ++ [digitCode d]) = 10 * digitsValue cs + d := by
  rw [digitsValue, List.foldl_append, List.foldl_cons, List.foldl_nil, digitCode_toNat h, digitsValue]
  omega

/-! ### The integer part without separators (R69) -/

theorem decimalDigits_small (fuel : Nat) {n : Nat} (h : n < 10) :
    decimalDigits (fuel + 1) n = [digitCode n] := if_pos h

theorem decimalDigits_large (fuel : Nat) {n : Nat} (h : ¬ n < 10) :
    decimalDigits (fuel + 1) n = decimalDigits fuel (n / 10) ++ [digitCode (n % 10)] := if_neg h

theorem decimalDigits_ne_nil {fuel : Nat} (hfuel : fuel ≠ 0) (n : Nat) : decimalDigits fuel n ≠ [] := by
  obtain ⟨fuel, rfl⟩ := Nat.exists_eq_succ_of_ne_zero hfuel
  by_cases h : n < 10
  · simp [decimalDigits_small fuel h]
  · simp [decimalDigits_large fuel h]

theorem isDigit_of_mem_decimalDigits : ∀ {fuel n : Nat}, ∀ c ∈ decimalDigits fuel n, IsDigit c
  | 0, _, _, hc => nomatch hc
  | fuel + 1, n, c, hc => by
    by_cases h : n < 10
    · rw [decimalDigits_small fuel h, List.mem_singleton] at hc
      exact hc ▸ isDigit_digitCode h
    · rw [decimalDigits_large fuel h, List.mem_append, List.mem_singleton] at hc
      rcases hc with hc | rfl
      · exact isDigit_of_mem_decimalDigits c hc
      · exact isDigit_digitCode (Nat.mod_lt n (by decide))

theorem isDigit_of_mem_integerDigits {n : Nat} : ∀ c ∈ integerDigits n, IsDigit c :=
  isDigit_of_mem_decimalDigits

theorem digitsValue_decimalDigits : ∀ {fuel n : Nat}, n < 10 ^ fuel →
    digitsValue (decimalDigits fuel n) = n
  | 0, n, hn => (Nat.lt_one_iff.mp hn).symm
  | fuel + 1, n, hn => by
    by_cases h : n < 10
    · rw [decimalDigits_small fuel h, ← List.nil_append [digitCode n], digitsValue_concat [] h]
      exact Nat.zero_add n
    · have hdiv : n / 10 < 10 ^ fuel := by rw [Nat.pow_succ] at hn; omega
      rw [decimalDigits_large fuel h, digitsValue_concat _ (Nat.mod_lt n (by decide)),
        digitsValue_decimalDigits hdiv, Nat.div_add_mod]

/-- R69: no leading zero but the single 0. -/
theorem decimalDigits_head?_zero : ∀ {fuel n : Nat}, n < 10 ^ fuel →
    (decimalDigits fuel n).head? = some 0x30 → n = 0
  | 0, _, _, hzero => nomatch hzero
  | fuel + 1, n, hn, hzero => by
    by_cases h : n < 10
    · rw [decimalDigits_small fuel h] at hzero
      have hcode : 0x30 + n = 0x30 := by
        rw [← digitCode_toNat h, Option.some.inj hzero]
        rfl
      omega
    · have hdiv : n / 10 < 10 ^ fuel := by rw [Nat.pow_succ] at hn; omega
      have hfuel : fuel ≠ 0 := by rintro rfl; rw [Nat.pow_zero] at hdiv; omega
      rw [decimalDigits_large fuel h, List.head?_append_of_ne_nil _ (decimalDigits_ne_nil hfuel _)]
        at hzero
      have := decimalDigits_head?_zero hdiv hzero
      omega

/-! ### The decimals (R69) -/

theorem length_fixedDigits : ∀ d n : Nat, (fixedDigits d n).length = d
  | 0, _ => rfl
  | d + 1, n => by rw [fixedDigits, List.length_append, length_fixedDigits d, List.length_singleton]

theorem isDigit_of_mem_fixedDigits : ∀ {d n : Nat}, ∀ c ∈ fixedDigits d n, IsDigit c
  | 0, _, _, hc => nomatch hc
  | d + 1, n, c, hc => by
    rw [fixedDigits, List.mem_append, List.mem_singleton] at hc
    rcases hc with hc | rfl
    · exact isDigit_of_mem_fixedDigits c hc
    · exact isDigit_digitCode (Nat.mod_lt n (by decide))

/-- Behind a number stand its `d` decimals. -/
theorem digitsValue_append_fixedDigits (cs : List Byte) : ∀ {d n : Nat}, n < 10 ^ d →
    digitsValue (cs ++ fixedDigits d n) = 10 ^ d * digitsValue cs + n
  | 0, n, hn => by
    obtain rfl : n = 0 := Nat.lt_one_iff.mp hn
    simp [fixedDigits]
  | d + 1, n, hn => by
    have hdiv : n / 10 < 10 ^ d := by rw [Nat.pow_succ] at hn; omega
    rw [fixedDigits, ← List.append_assoc, digitsValue_concat _ (Nat.mod_lt n (by decide)),
      digitsValue_append_fixedDigits cs hdiv, Nat.pow_succ', Nat.mul_assoc]
    omega

/-! ### Separators (R70) -/

/-- The codes of a magnitude that are digits: all but commas and points. -/
def keepDigits (cs : List Byte) : List Byte := cs.filter fun c => c != 0x2C && c != 0x2E

theorem keepDigits_append (cs ds : List Byte) : keepDigits (cs ++ ds) = keepDigits cs ++ keepDigits ds :=
  List.filter_append cs ds

theorem keepDigits_of_digits {cs : List Byte} (h : ∀ c ∈ cs, IsDigit c) : keepDigits cs = cs :=
  List.filter_eq_self.mpr fun c hc => by
    have hcomma : c ≠ 0x2C := (h c hc).ne (by decide)
    have hpoint : c ≠ 0x2E := (h c hc).ne (by decide)
    simpa using ⟨hcomma, hpoint⟩

/-- R70: a digit is followed by a comma where a whole number of threes, and at least one, stands behind
it. -/
theorem groupThrees_cons (c : Byte) (t : List Byte) :
    groupThrees (c :: t) =
      if 0 < t.length ∧ t.length % 3 = 0 then c :: 0x2C :: groupThrees t else c :: groupThrees t := by
  rw [groupThrees]
  cases t <;> simp

theorem head?_groupThrees (cs : List Byte) : (groupThrees cs).head? = cs.head? := by
  cases cs with
  | nil => rfl
  | cons c t =>
    rw [groupThrees_cons]
    split <;> rfl

theorem keepDigits_groupThrees : ∀ {cs : List Byte}, (∀ c ∈ cs, IsDigit c) →
    keepDigits (groupThrees cs) = cs
  | [], _ => rfl
  | c :: t, h => by
    obtain ⟨hc, ht⟩ := List.forall_mem_cons.mp h
    have hkeep : keepDigits [c] = [c] := keepDigits_of_digits (by simpa using hc)
    have ih := keepDigits_groupThrees ht
    rw [groupThrees_cons]
    split
    · rw [← List.singleton_append, keepDigits_append, hkeep]
      exact congrArg (c :: ·) ih
    · rw [← List.singleton_append, keepDigits_append, hkeep, ih]
      rfl

theorem mem_groupThrees : ∀ {cs : List Byte} {x : Byte}, x ∈ groupThrees cs → x ∈ cs ∨ x = 0x2C
  | [], _, hx => nomatch hx
  | c :: t, x, hx => by
    have hx : x = c ∨ x = 0x2C ∨ x ∈ groupThrees t := by
      rw [groupThrees_cons] at hx
      split at hx
      · simpa using hx
      · exact (List.mem_cons.mp hx).imp_right .inr
    rcases hx with rfl | rfl | hx
    · exact .inl List.mem_cons_self
    · exact .inr rfl
    · exact (mem_groupThrees hx).imp_left (List.mem_cons_of_mem c)

/-- R70: `n` digits and a comma for each whole three of them but one at the left end. -/
theorem length_groupThrees : ∀ cs : List Byte,
    (groupThrees cs).length = cs.length + (cs.length - 1) / 3
  | [] => rfl
  | c :: t => by
    rw [groupThrees_cons]
    split <;> simp only [List.length_cons, length_groupThrees t] <;> omega

theorem getElem?_reverse_cons_eq_some_iff {α : Type} (a x : α) (l : List α) (i : Nat) :
    (a :: l).reverse[i]? = some x ↔ l.reverse[i]? = some x ∨ i = l.length ∧ a = x := by
  rw [List.reverse_cons, List.getElem?_append, List.length_reverse]
  rcases Nat.lt_trichotomy i l.length with hlt | rfl | hgt
  · simp [hlt, Nat.ne_of_lt hlt]
  · simp
  · have hout : l.reverse[i]? = none := List.getElem?_eq_none (by rw [List.length_reverse]; omega)
    have hend : [a][i - l.length]? = none := List.getElem?_eq_none (by rw [List.length_singleton]; omega)
    rw [if_neg (Nat.lt_asymm hgt), hout, hend]
    simp [Nat.ne_of_gt hgt]

/-- R70: from the right end, every fourth code is a comma and no other is. -/
theorem groupThrees_reverse_comma_iff : ∀ {cs : List Byte}, (∀ c ∈ cs, IsDigit c) → ∀ i : Nat,
    ((groupThrees cs).reverse[i]? = some 0x2C ↔ i < (groupThrees cs).length ∧ i % 4 = 3)
  | [], _, i => ⟨nofun, fun hi => absurd hi.1 (Nat.not_lt_zero i)⟩
  | c :: t, h, i => by
    obtain ⟨hc, ht⟩ := List.forall_mem_cons.mp h
    have hcomma : c ≠ 0x2C := hc.ne (by decide)
    have hlen := length_groupThrees t
    have ih := groupThrees_reverse_comma_iff ht i
    rw [groupThrees_cons]
    split
    · rw [getElem?_reverse_cons_eq_some_iff, getElem?_reverse_cons_eq_some_iff, ih]
      simp only [hcomma, and_false, and_true, or_false, List.length_cons]
      omega
    · rw [getElem?_reverse_cons_eq_some_iff, ih]
      simp only [hcomma, and_false, or_false, List.length_cons]
      omega

/-! ### A magnitude (R69 to R71) -/

/-- R70: the integer part of a figure, with separators where they are asked for. -/
def grouped (sep : Bool) (cs : List Byte) : List Byte := if sep then groupThrees cs else cs

/-- R69: the point and the decimals of a figure; nothing where it has none. -/
def decimalPart (d n : Nat) : List Byte := if d = 0 then [] else 0x2E :: fixedDigits d n

theorem magnitudeText_eq (sep : Bool) (d m : Nat) :
    magnitudeText sep d m = grouped sep (integerDigits (m / 10 ^ d)) ++ decimalPart d (m % 10 ^ d) := rfl

theorem head?_grouped (sep : Bool) (cs : List Byte) : (grouped sep cs).head? = cs.head? := by
  cases sep with
  | false => rfl
  | true => exact head?_groupThrees cs

theorem mem_grouped {sep : Bool} {cs : List Byte} {x : Byte} (hx : x ∈ grouped sep cs) :
    x ∈ cs ∨ x = 0x2C := by
  cases sep with
  | false => exact .inl hx
  | true => exact mem_groupThrees hx

theorem keepDigits_grouped (sep : Bool) {cs : List Byte} (h : ∀ c ∈ cs, IsDigit c) :
    keepDigits (grouped sep cs) = cs := by
  cases sep with
  | false => exact keepDigits_of_digits h
  | true => exact keepDigits_groupThrees h

theorem grouped_reverse_comma_iff (sep : Bool) {cs : List Byte} (h : ∀ c ∈ cs, IsDigit c) {i : Nat}
    (hi : i < (grouped sep cs).length) :
    (grouped sep cs).reverse[i]? = some 0x2C ↔ sep = true ∧ i % 4 = 3 := by
  cases sep with
  | true => exact (groupThrees_reverse_comma_iff h i).trans (and_congr_left' (iff_of_true hi rfl))
  | false =>
    refine iff_of_false (fun hcomma => ?_) nofun
    exact (h 0x2C (List.mem_reverse.mp (List.mem_of_getElem? hcomma))).ne (by decide) rfl

theorem keepDigits_decimalPart (d n : Nat) : keepDigits (decimalPart d n) = fixedDigits d n := by
  cases d with
  | zero => rfl
  | succ d => exact keepDigits_of_digits isDigit_of_mem_fixedDigits

theorem decimalPart_tail (d n : Nat) : (decimalPart d n).tail = fixedDigits d n := by
  cases d <;> rfl

theorem mem_decimalPart {d n : Nat} {x : Byte} (hx : x ∈ decimalPart d n) : IsDigit x ∨ x = 0x2E := by
  unfold decimalPart at hx
  split at hx
  · cases hx
  · exact (List.mem_cons.mp hx).symm.imp_left (isDigit_of_mem_fixedDigits x)

/-- R69: twenty digits hold every magnitude of the part. -/
theorem integerPart_lt {m : Nat} (d : Nat) (hm : m ≤ 2147483648) : m / 10 ^ d < 10 ^ 20 :=
  Nat.lt_of_le_of_lt ((Nat.div_le_self _ _).trans hm) (by decide)

/-- R69, R71: the digits of a magnitude. -/
theorem keepDigits_magnitudeText (sep : Bool) (d m : Nat) :
    keepDigits (magnitudeText sep d m) =
      integerDigits (m / 10 ^ d) ++ fixedDigits d (m % 10 ^ d) := by
  rw [magnitudeText_eq, keepDigits_append, keepDigits_grouped sep isDigit_of_mem_integerDigits,
    keepDigits_decimalPart]

theorem isDigit_of_mem_keepDigits {sep : Bool} {d m : Nat} :
    ∀ c ∈ keepDigits (magnitudeText sep d m), IsDigit c := fun c hc => by
  rw [keepDigits_magnitudeText, List.mem_append] at hc
  exact hc.elim (isDigit_of_mem_integerDigits c) (isDigit_of_mem_fixedDigits c)

/-- R69, R71: they write the magnitude. -/
theorem digitsValue_magnitudeText (sep : Bool) (d : Nat) {m : Nat} (hm : m ≤ 2147483648) :
    digitsValue (keepDigits (magnitudeText sep d m)) = m := by
  rw [keepDigits_magnitudeText, digitsValue_append_fixedDigits _ (Nat.mod_lt m (Nat.pow_pos (by decide))),
    integerDigits, digitsValue_decimalDigits (integerPart_lt d hm), Nat.div_add_mod]

/-- R69: the integer part begins with 0 only where it is the single 0, grouped or not. -/
theorem grouped_integerDigits_of_head {sep : Bool} {n : Nat} (hn : n < 10 ^ 20)
    (h : (grouped sep (integerDigits n)).head? = some 0x30) :
    grouped sep (integerDigits n) = [0x30] := by
  rw [head?_grouped] at h
  obtain rfl : n = 0 := decimalDigits_head?_zero hn h
  cases sep <;> rfl

/-! ### The percent figure (R74) -/

/-- R74: the count of hundredths before it is bounded, a half rounded away from zero. -/
def roundedHundredths (c prev : Int) : Nat := (2 * (c * 10000).natAbs + prev.natAbs) / (2 * prev.natAbs)

/-- R74: the bound of a figure on either side. -/
def percentLimit (p : Int) : Int := if 99999 < p then 99999 else if p < -99999 then -99999 else p

theorem percentLimit_natCast (m : Nat) : percentLimit m = ((min m 99999 : Nat) : Int) := by
  unfold percentLimit
  split
  · omega
  · rw [if_neg (by omega)]
    omega

theorem percentLimit_neg (m : Nat) : percentLimit (-(m : Int)) = -((min m 99999 : Nat) : Int) := by
  unfold percentLimit
  rw [if_neg (by omega)]
  split <;> omega

theorem percentFigure_eq (c prev : Int) :
    percentFigure c prev =
      if c < 0 then -((min (roundedHundredths c prev) 99999 : Nat) : Int)
      else ((min (roundedHundredths c prev) 99999 : Nat) : Int) := by
  have hlimit : percentFigure c prev = percentLimit
      (if c < 0 then -(roundedHundredths c prev : Int) else (roundedHundredths c prev : Int)) := rfl
  rw [hlimit, apply_ite percentLimit, percentLimit_neg, percentLimit_natCast]

theorem natAbs_percentFigure (c prev : Int) :
    (percentFigure c prev).natAbs = min (roundedHundredths c prev) 99999 := by
  rw [percentFigure_eq]
  split
  · rw [Int.natAbs_neg, Int.natAbs_natCast]
  · rw [Int.natAbs_natCast]

/-- R74: the count is the nearest one. -/
theorem roundedHundredths_bounds (c : Int) {prev : Int} (h : 0 < prev) :
    2 * (roundedHundredths c prev * prev.natAbs) ≤ 2 * (c * 10000).natAbs + prev.natAbs ∧
      2 * (c * 10000).natAbs < 2 * (roundedHundredths c prev * prev.natAbs) + prev.natAbs := by
  have hle := Nat.div_mul_le_self (2 * (c * 10000).natAbs + prev.natAbs) (2 * prev.natAbs)
  have hlt := Nat.lt_div_mul_add (a := 2 * (c * 10000).natAbs + prev.natAbs)
    (show 0 < 2 * prev.natAbs by omega)
  rw [← roundedHundredths, Nat.mul_left_comm] at hle hlt
  omega

theorem percentFigure_zero {prev : Int} (h : 0 < prev) : percentFigure 0 prev = 0 := by
  have hround : roundedHundredths 0 prev = 0 := Nat.div_eq_of_lt (by simp; omega)
  rw [percentFigure_eq, hround]
  rfl

/-- R74, R75: the sign of a figure is the change's. -/
theorem percentFigure_sign (c : Int) {prev : Int} (h : 0 < prev) :
    (0 ≤ c → 0 ≤ percentFigure c prev) ∧ (c ≤ 0 → percentFigure c prev ≤ 0) := by
  rcases Int.lt_trichotomy c 0 with hneg | rfl | hpos
  · rw [percentFigure_eq, if_pos hneg]
    omega
  · rw [percentFigure_zero h]
    exact ⟨id, id⟩
  · rw [percentFigure_eq, if_neg (by omega)]
    omega

/-- R74: nearest, halves away from zero, and bounded. -/
theorem percentFigure_nearest (c : Int) {prev : Int} (h : 0 < prev) :
    (percentFigure c prev).natAbs ≤ 99999 ∧
      2 * ((percentFigure c prev).natAbs * prev.natAbs) ≤ 2 * (c * 10000).natAbs + prev.natAbs ∧
      ((percentFigure c prev).natAbs < 99999 →
        2 * (c * 10000).natAbs < 2 * ((percentFigure c prev).natAbs * prev.natAbs) + prev.natAbs) := by
  obtain ⟨hle, hlt⟩ := roundedHundredths_bounds c h
  rw [natAbs_percentFigure]
  refine ⟨Nat.min_le_right _ _, ?_, fun hsmall => ?_⟩
  · exact (Nat.mul_le_mul_left 2 (Nat.mul_le_mul_right _ (Nat.min_le_left _ _))).trans hle
  · rwa [Nat.min_eq_left (by omega)]

/-! ### The statement -/

theorem arrowCode_eq (st : QuoteStatus) (c : Int) :
    arrowCode st c =
      if st = .halted then 0x1D else if 0 < c then 0x1E else if c < 0 then 0x1F else 0x1D := by
  cases st <;> rfl

/-- R75: the percent figure is a magnitude of two decimals. -/
theorem percentText_eq (p : Int) : percentText p = signText p ++ magnitudeText false 2 p.natAbs :=
  List.append_assoc ..

theorem percentPart_eq (v : QuoteValue) (flag : Bool) :
    percentPart v flag =
      if v.percent = true ∧ flag = true ∧ 0 < v.price - v.change then
        [0x20, 0x28] ++ percentText (percentFigure v.change (v.price - v.change)) ++ [0x25, 0x29]
      else [] := by
  simp only [percentPart, Bool.and_eq_true, decide_eq_true_eq, and_assoc]

/-- Settles O33: a magnitude by its digits, the percent figure by its rounding, the text by its parts. -/
theorem quoteTextRules : Obligations.QuoteTextRules := by
  refine ⟨?magnitude, ?percent, ?text⟩
  case magnitude =>
    intro sep d m _ hm
    have hdigits : ∀ c ∈ integerDigits (m / 10 ^ d), IsDigit c := isDigit_of_mem_integerDigits
    have hne : integerDigits (m / 10 ^ d) ≠ [] := decimalDigits_ne_nil (by decide) _
    refine ⟨isDigit_of_mem_keepDigits, digitsValue_magnitudeText sep d hm,
      grouped sep (integerDigits (m / 10 ^ d)), decimalPart d (m % 10 ^ d), magnitudeText_eq sep d m,
      ?point, ?comma, ?nonempty, ?whole, ?fraction, ?onePoint, ?left, ?zero, ?separators⟩
    case point =>
      rintro c hc
      rcases mem_grouped hc with hc | rfl
      · exact (hdigits c hc).ne (by decide)
      · decide
    case comma =>
      intro c hc
      rcases mem_decimalPart hc with hc | rfl
      · exact hc.ne (by decide)
      · decide
    case nonempty =>
      intro hnil
      have hhead := head?_grouped sep (integerDigits (m / 10 ^ d))
      rw [hnil] at hhead
      exact hne (List.head?_eq_none_iff.mp hhead.symm)
    case whole => exact fun hd => if_pos hd
    case fraction =>
      intro hd
      rw [decimalPart, if_neg (Nat.ne_of_gt hd), List.length_cons, length_fixedDigits]
      exact ⟨rfl, rfl⟩
    case onePoint =>
      intro c hc
      rw [decimalPart_tail] at hc
      exact (isDigit_of_mem_fixedDigits c hc).ne (by decide)
    case left =>
      rw [head?_grouped]
      exact fun hhead => (hdigits _ (List.mem_of_head? hhead)).ne (by decide) rfl
    case zero => exact grouped_integerDigits_of_head (integerPart_lt d hm)
    case separators => exact fun i hi => grouped_reverse_comma_iff sep hdigits hi
  case percent =>
    intro c prev h
    obtain ⟨hplus, hminus⟩ := percentFigure_sign c h
    exact ⟨hplus, hminus, percentFigure_nearest c h⟩
  case text =>
    intro v sep flag
    simp only [quoteText, priceText, changeText, percentPart_eq, percentText_eq, signText, arrowCode_eq,
      List.isEmpty_iff]

end Sys2Proof.Machine

/-! ## The strip behind a column of a lane (R98 to R104) -/

namespace Sys2Proof.Machine

/-! ### The entry that covers a strip position (R98) -/

/-- R98: a placed entry covers the strip positions from its start over its width. -/
def Placement.Covers (p : Placement) (t : Int) : Prop := p.start ≤ t ∧ t < p.start + (p.width : Int)

theorem Placement.covers_iff (p : Placement) (t : Int) :
    (decide (p.start ≤ t) && decide (t < p.start + p.width)) = true ↔ p.Covers t := by
  rw [Bool.and_eq_true, decide_eq_true_eq, decide_eq_true_eq, Placement.Covers]

theorem Lane.covering_eq_none {l : Lane} {t : Int} (h : ∀ x ∈ l.entries, ¬ x.2.Covers t) :
    l.covering t = none :=
  List.find?_eq_none.mpr fun x hx hc => h x hx ((x.2.covers_iff t).mp hc)

/-- R98: the first entry that covers a position is the one behind it. -/
theorem Lane.covering_eq_some {l : Lane} {t : Int} {before after : List (Nat × Placement)}
    {x : Nat × Placement} (hl : l.entries = before ++ x :: after) (hb : ∀ y ∈ before, ¬ y.2.Covers t)
    (hx : x.2.Covers t) : l.covering t = some x := by
  rw [Lane.covering, List.find?_eq_some_iff_append]
  refine ⟨(x.2.covers_iff t).mpr hx, before, after, hl, fun y hy => ?_⟩
  rw [Bool.not_eq_true', Bool.eq_false_iff]
  exact fun hc => hb y hy ((y.2.covers_iff t).mp hc)

/-! ### Coverage (R99, R100) -/

/-- R100: a glyph's bitmap holds the columns from its place over its bitmap width. -/
def GlyphPlace.Holds (g : GlyphPlace) (font : Font) (r : Nat) : Prop :=
  g.pos ≤ r ∧ r < g.pos + (font.glyph g.code).width

theorem GlyphPlace.holds_iff (g : GlyphPlace) (font : Font) (r : Nat) :
    (decide (g.pos ≤ r) && decide (r < g.pos + (font.glyph g.code).width)) = true ↔
      g.Holds font r := by
  rw [Bool.and_eq_true, decide_eq_true_eq, decide_eq_true_eq, GlyphPlace.Holds]

section
variable {s : State} {f : Form} {line r : Nat} {k : Style} {src : ItemSource}

/-- R99: above and below the font rows there is no coverage. -/
theorem State.entryCoverage_off_rows
    (h : line < f.textTop (s.fontOf k).height ∨
      f.textTop (s.fontOf k).height + (s.fontOf k).height ≤ line) :
    s.entryCoverage f line k src r = 0 :=
  if_neg (by omega)

/-- R100: nor where no glyph's bitmap holds the column. -/
theorem State.entryCoverage_no_glyph (h : ∀ g ∈ s.sourceRun k src, ¬ g.Holds (s.fontOf k) r) :
    s.entryCoverage f line k src r = 0 := by
  have hnone : (s.sourceRun k src).find? (fun p =>
      decide (p.pos ≤ r) && decide (r < p.pos + ((s.fontOf k).glyph p.code).width)) = none :=
    List.find?_eq_none.mpr fun g hg hc => h g hg ((g.holds_iff _ r).mp hc)
  simp only [State.entryCoverage, hnone, ite_self]

/-- R100: elsewhere it is the nibble of the first glyph that holds the column, widened to 8 bits. -/
theorem State.entryCoverage_glyph {left right : List GlyphPlace} {g : GlyphPlace}
    (htop : f.textTop (s.fontOf k).height ≤ line)
    (hbottom : line < f.textTop (s.fontOf k).height + (s.fontOf k).height)
    (hrun : s.sourceRun k src = left ++ g :: right) (hl : ∀ y ∈ left, ¬ y.Holds (s.fontOf k) r)
    (hg : g.Holds (s.fontOf k) r) :
    s.entryCoverage f line k src r =
      17 * ((s.fontOf k).glyph g.code).nibble (r - g.pos) (line - f.textTop (s.fontOf k).height) := by
  have hfirst : (s.sourceRun k src).find? (fun p =>
      decide (p.pos ≤ r) && decide (r < p.pos + ((s.fontOf k).glyph p.code).width)) = some g := by
    rw [List.find?_eq_some_iff_append]
    refine ⟨(g.holds_iff _ r).mpr hg, left, right, hrun, fun y hy => ?_⟩
    rw [Bool.not_eq_true', Bool.eq_false_iff]
    exact fun hc => hl y hy ((y.holds_iff _ r).mp hc)
  simp only [State.entryCoverage, hfirst]
  rw [if_pos ⟨htop, hbottom⟩, Nat.mul_comm]

end

theorem State.coverage_gap {s : State} {l : Lane} {line : Nat} {t : Int} (h : l.covering t = none) :
    s.coverage l line t = 0 := by
  rw [State.coverage, h]

theorem State.coverage_entry {s : State} {l : Lane} {line : Nat} {t : Int} {x : Nat × Placement}
    (h : l.covering t = some x) :
    s.coverage l line t =
      s.entryCoverage l.form line (s.style x.2.style) (s.item x.1).source (t - x.2.start).toNat := by
  rw [State.coverage, h]

/-! ### Colors (R102 to R104) -/

/-- R103: the text color of a quote, by its status and its change. -/
theorem State.textColor_quote {s : State} {n : Nat} {v : QuoteValue} (k : Style)
    (h : (s.quote n).shown = some v) :
    s.textColor k (.quote n) =
      if v.status = .halted then k.colors.halt
      else if 0 < v.change then k.colors.up
      else if v.change < 0 then k.colors.down
      else k.colors.flat := by
  simp only [State.textColor, h]
  cases v.status <;> rfl

theorem State.textColor_unshown {s : State} {n : Nat} (k : Style) (h : (s.quote n).shown = none) :
    s.textColor k (.quote n) = k.colors.text := by
  simp only [State.textColor, h]

/-! ### The word behind a column (R101 to R104) -/

/-- R98, R101: the strip position of the first of the two samples behind a column. -/
def Lane.columnPos (l : Lane) (col : Nat) : Int := ((l.offset / 256 + (col - l.form.left) : Nat) : Int)

/-- R101: the weight of the two samples behind a column. -/
def State.columnWeight (s : State) (l : Lane) (line col : Nat) : Nat :=
  coverageWeight (l.offset % 256) (s.coverage l line (l.columnPos col))
    (s.coverage l line (l.columnPos col + 1))

section
variable {s : State} {l : Lane} {line col : Nat} {w : Word}

/-- R102: over the gap the colors and the alpha are the lane style's. -/
theorem State.composeUnder_gap (h : l.covering (l.columnPos col) = none) :
    s.composeUnder l line col w =
      blendWord w (s.style l.form.style).colors.fill (s.style l.form.style).colors.text
        (s.style l.form.style).flash.alpha (s.columnWeight l line col) l.fade
        (s.style l.form.style).flash.legalize := by
  have hpos : (l.offsetPx : Int) + ((col - l.form.left : Nat) : Int) = l.columnPos col := rfl
  simp only [State.composeUnder, hpos, h]
  rfl

/-- R102 to R104: over an entry they are its own style's, the fill flashed, the text by its item. -/
theorem State.composeUnder_entry {x : Nat × Placement} (h : l.covering (l.columnPos col) = some x) :
    s.composeUnder l line col w =
      blendWord w ((s.style x.2.style).flashedFill x.2.env)
        (s.textColor (s.style x.2.style) (s.item x.1).source) (s.style x.2.style).flash.alpha
        (s.columnWeight l line col) l.fade (s.style l.form.style).flash.legalize := by
  have hpos : (l.offsetPx : Int) + ((col - l.form.left : Nat) : Int) = l.columnPos col := rfl
  simp only [State.composeUnder, hpos, h]
  rfl

end

/-! ### The statement -/

/-- Settles O31: the covering entry, its glyph, the weight of the samples and the colors. -/
theorem stripBehindColumn : Obligations.StripBehindColumn := by
  intro s l line covers
  refine ⟨fun _ => s.fontOf_getElem?, fun t hgap => State.coverage_gap (Lane.covering_eq_none hgap),
    ?entry, fun col w _ => ⟨?over_gap, ?over_entry⟩⟩
  case entry =>
    intro t before after x hl hb hx k font r top holds run
    have hcover := State.coverage_entry (s := s) (line := line) (Lane.covering_eq_some hl hb hx)
    refine ⟨fun hnone => hcover.trans ?_, fun left right g htop hbottom hrun hleft hg =>
      hcover.trans (State.entryCoverage_glyph htop hbottom hrun hleft hg)⟩
    rcases hnone with habove | hbelow | hglyph
    · exact State.entryCoverage_off_rows (.inl habove)
    · exact State.entryCoverage_off_rows (.inr hbelow)
    · exact State.entryCoverage_no_glyph hglyph
  case over_gap => exact fun hgap => State.composeUnder_gap (Lane.covering_eq_none hgap)
  case over_entry =>
    intro before after x hl hb hx k h fl flashed fill text
    have hfill : k.flashedFill x.2.env = fill := by
      simp only [Style.flashedFill, fill, fl]
      cases x.2.env.direction <;> rfl
    have htext : s.textColor k (s.item x.1).source = text := by
      simp only [text]
      cases (s.item x.1).source with
      | text head => rfl
      | clock => rfl
      | quote n =>
        cases hv : (s.quote n).shown with
        | none =>
          rw [State.textColor_unshown k hv]
          simp only [hv]
        | some v =>
          rw [State.textColor_quote k hv]
          simp only [hv]
    rw [State.composeUnder_entry (Lane.covering_eq_some hl hb hx), hfill, htext]
    rfl

end Sys2Proof.Machine

/-! ## The highlight envelope -/

namespace Sys2Proof.Machine

section
variable {e : Envelope}

/-- R82: the attack steps of the sixteen rate indices. -/
theorem attackStep_table : ∀ i, i < 16 →
    attackStep i = [65280, 32640, 21760, 16320, 10880, 8160, 6528, 5440, 4352, 3264, 2176, 1451, 1088,
      726, 436, 272].getD i 0 := by
  decide

/-- R82: the decay and release steps of the sixteen rate indices. -/
theorem decayStep_table : ∀ i, i < 16 →
    decayStep i = [65280, 21760, 10880, 7254, 5440, 4352, 3264, 2612, 2176, 1451, 726, 436, 363, 218,
      146, 73].getD i 0 := by
  decide

/-- R85: a release ends a phase that a hold gates. -/
theorem Envelope.letGo_of_gated (h : e.phase.gated = true) :
    e.letGo = { e with phase := .release, hold := 0 } :=
  if_pos h

/-- R85: a release in IDLE or RELEASE changes nothing. -/
theorem Envelope.letGo_of_not_gated (h : ¬ e.phase.gated = true) : e.letGo = e :=
  if_neg h

/-! ### The phase step, phase by phase (R86) -/

theorem Envelope.phaseStep_idle (k : Style) (h : e.phase = .idle) : e.phaseStep k = e := by
  simp only [Envelope.phaseStep, h]

theorem Envelope.phaseStep_sustain (k : Style) (h : e.phase = .sustain) : e.phaseStep k = e := by
  simp only [Envelope.phaseStep, h]

/-- The attack saturates at the peak, and the peak ends it. -/
theorem Envelope.phaseStep_attack (k : Style) (h : e.phase = .attack) :
    e.phaseStep k =
      if 65280 ≤ e.level + attackStep k.flash.attack then { e with level := 65280, phase := .decay }
      else { e with level := e.level + attackStep k.flash.attack } := by
  simp only [Envelope.phaseStep, h]
  by_cases hpeak : Config.envelopePeak ≤ e.level + attackStep k.flash.attack
  · rw [Nat.min_eq_left hpeak, if_pos rfl, if_pos hpeak]
  · rw [Nat.min_eq_right (Nat.le_of_not_le hpeak), if_neg (fun heq => hpeak heq.ge), if_neg hpeak]

/-- The decay stops at the sustain target: at once where the level is not beyond it, and else with the
step that reaches it. -/
theorem Envelope.phaseStep_decay (k : Style) (h : e.phase = .decay) :
    e.phaseStep k =
      if e.level ≤ k.flash.sustain * 4352 then { e with phase := .sustain }
      else if e.level - decayStep k.flash.decay ≤ k.flash.sustain * 4352 then
        { e with level := k.flash.sustain * 4352, phase := .sustain }
      else { e with level := e.level - decayStep k.flash.decay } := by
  have htarget : k.flash.sustain * 4352 = sustainTarget k.flash.sustain := rfl
  simp only [Envelope.phaseStep, h]
  rw [htarget]
  by_cases hbelow : e.level ≤ sustainTarget k.flash.sustain
  · rw [if_neg (Nat.not_lt.mpr hbelow), if_pos hbelow, if_pos hbelow]
  · rw [if_pos (Nat.not_le.mp hbelow), if_neg hbelow]
    by_cases hreach : e.level - decayStep k.flash.decay ≤ sustainTarget k.flash.sustain
    · rw [Nat.max_eq_left hreach, if_pos le_rfl, if_pos hreach]
    · rw [Nat.max_eq_right (Nat.le_of_not_le hreach), if_neg hreach, if_neg hreach]

/-- The release ends with the step that reaches 0. -/
theorem Envelope.phaseStep_release (k : Style) (h : e.phase = .release) :
    e.phaseStep k =
      if e.level - decayStep k.flash.release = 0 then { e with level := 0, phase := .idle }
      else { e with level := e.level - decayStep k.flash.release } := by
  simp only [Envelope.phaseStep, h]
  split
  case isTrue hzero => rw [hzero]
  case isFalse => rfl

end

/-! ### The statement -/

/-- Settles O46: the tables, the trigger and the release by their equations, and the step as the phase
step of each phase with the hold countdown behind it. -/
theorem envelopeRules : Obligations.EnvelopeRules := by
  intro e k d hlevel _ hold lit
  have hlit : ∀ x : Phase, x.gated = true ↔ lit x := Phase.gated_iff
  refine ⟨fun i hi => ⟨attackStep_table i hi, decayStep_table i hi⟩, rfl,
    fun h => Envelope.letGo_of_gated ((hlit _).mpr h),
    fun h => Envelope.letGo_of_not_gated (mt (hlit _).mp h), ?step⟩
  case step =>
    intro target up low out stood
    have hstood : e.phaseStep k = stood := by
      cases hp : e.phase with
      | idle => simp only [stood, hp, Envelope.phaseStep_idle k hp]
      | attack => simp only [stood, hp, Envelope.phaseStep_attack k hp, up]
      | decay => simp only [stood, hp, Envelope.phaseStep_decay k hp, target, low]
      | sustain => simp only [stood, hp, Envelope.phaseStep_sustain k hp]
      | release => simp only [stood, hp, Envelope.phaseStep_release k hp, out]
    refine ⟨?_, Envelope.step_level k hlevel⟩
    rw [Envelope.step, hstood]
    simp only [Envelope.holdStep, hlit]

end Sys2Proof.Machine

/-! ## A field start outside ACTIVE (R95, R131, R161, R163, R165) -/

namespace Sys2Proof.Machine

/-- Settles O39: outside ACTIVE a field start is its head alone. -/
theorem fieldStartOutsideActive : Obligations.FieldStartOutsideActive := by
  intro s parity order hr hd
  change Host.Outcome.next (ite _ (ite _ _ _) _) = _
  rw [if_pos hr, if_neg (show (s.quiet.fieldHead parity).device ≠ .active from hd)]
  rfl

end Sys2Proof.Machine

/-! ## Reads that pass, and scan reads by their frame line (R93, R94, R131, R144, R153) -/

namespace Sys2Proof.Machine

/-! ### The system port (R144, R153) -/

section
variable {s : State}

/-- R144: while a write is held, a transaction that is presented waits behind those that wait. -/
theorem State.present_of_held (h : s.port.held ≠ none) (t : SysTxn) :
    s.present t = { s with port := { s.port with waiting := s.port.waiting ++ [t] } } := by
  have hheld : s.port.held.isSome = true := Option.isSome_iff_ne_none.mpr h
  unfold State.present
  cases hw : s.port.waiting with
  | nil => exact if_pos hheld
  | cons u us => exact if_pos hheld

/-- R153: the free port takes a read, which passes to memory. -/
theorem State.present_read_of_free (h : s.PortFree) (r : ReadTxn) :
    s.present (.read r) =
      { s with out := s.out ++ [.memRead .system r.addr r.len r.size, .sysReadResp r.data r.reply] } := by
  obtain ⟨hheld, hwait⟩ := h
  have hopen : ¬ s.port.held.isSome = true := by simp [hheld]
  rw [State.present, hwait, List.nil_append, State.takeWaiting, if_neg hopen]
  simp [State.takeWaiting, State.takeTxn, State.emit, ← hwait]

theorem exec_systemRead_eq (hr : s.pins.resetN = true) (r : ReadTxn) :
    exec (.systemRead r) s = .next (s.quiet.present (.read r)) :=
  congrArg Host.Outcome.next (if_pos hr)

theorem exec_systemWrite_eq (hr : s.pins.resetN = true) (w : WriteTxn) :
    exec (.systemWrite w) s = .next (s.quiet.present (.write w)) :=
  congrArg Host.Outcome.next (if_pos hr)

end

/-! ### The scan port (R93, R94) -/

/-- R93: the state after a scan read has passed to memory and the levels of the cue pins are noted. -/
def State.scanPassed (s : State) (addr : Word) (burst : Burst) (levels : Four Bool) : State :=
  { s with
    out := [.memRead .scan addr burst.len burst.size], pins := { s.pins with cueIn := levels } }

section
variable {s : State} {addr : Word} {line : Nat} (burst : Burst) (levels : Four Bool)
  (order : List ReadTok)

/-- R93, R94: all that a scan read does. -/
theorem exec_scanRead_cases (hr : s.pins.resetN = true) :
    (s.frameLine addr.toNat = none ∧
      exec (.scanRead addr burst levels order) s = .next (s.scanPassed addr burst levels)) ∨
    ∃ line, s.frameLine addr.toNat = some line ∧ exec (.scanRead addr burst levels order) s = .next
      (if s.device = .active then (s.scanPassed addr burst levels).handLine line order
       else s.scanPassed addr burst levels) := by
  change _ ∧ execScanRead addr burst levels order s = _ ∨
    ∃ line, _ ∧ execScanRead addr burst levels order s = _
  unfold execScanRead
  rw [if_pos hr]
  dsimp only
  split
  case h_1 line hline => exact .inr ⟨line, hline, rfl⟩
  case h_2 hnone => exact .inl ⟨hnone, rfl⟩

/-- R94: a scan read in ACTIVE hands its frame line on. -/
theorem exec_scanRead_of_line (h : s.OnAir) (hl : s.frameLine addr.toNat = some line) :
    exec (.scanRead addr burst levels order) s =
      .next ((s.scanPassed addr burst levels).handLine line order) := by
  obtain ⟨hr, hd⟩ := h
  rcases exec_scanRead_cases (addr := addr) burst levels order hr with
    ⟨hnone, _⟩ | ⟨line', hline', hx⟩
  · rw [hl] at hnone; cases hnone
  · rw [hl] at hline'; cases hline'; rw [hx, if_pos hd]

/-- R93: a scan read that begins on no frame line, or outside ACTIVE, passes to memory and no more. -/
theorem exec_scanRead_of_pass (hr : s.pins.resetN = true)
    (h : s.device = .active → s.frameLine addr.toNat = none) :
    exec (.scanRead addr burst levels order) s = .next (s.scanPassed addr burst levels) := by
  rcases exec_scanRead_cases (addr := addr) burst levels order hr with
    ⟨_, hx⟩ | ⟨line, hline, hx⟩
  · exact hx
  · rw [hx, if_neg fun hd => by rw [h hd] at hline; cases hline]

end

/-- R94: the frame line of an address is that of its offset in the window that decodes it. -/
theorem State.frameLine_of_offset {s : State} {d : DecodeConfig} {addr o : Nat}
    (hd : s.conf.decode = some d) (ho : d.offset? addr = some o) :
    s.frameLine addr = some (o / d.pitch) := by
  simp only [State.frameLine, hd, Option.bind_some, ho, Option.map_some]

/-- R94: an address that no window decodes has no frame line. -/
theorem State.frameLine_eq_none {s : State} {addr : Nat}
    (h : ∀ d, s.conf.decode = some d → d.offset? addr = none) : s.frameLine addr = none := by
  unfold State.frameLine
  cases hd : s.conf.decode with
  | none => rfl
  | some d => rw [Option.bind_some, h d hd, Option.map_none]

/-! ### The statement -/

/-- Settles O25: the port by what waits at it, the scan read by the frame line that it has not. -/
theorem readsPass : Obligations.ReadsPass := by
  refine ⟨fun s r hr hp => ?read, fun s r hr hh => ?waitRead, fun s w hr hh => ?waitWrite,
    fun s addr burst levels order hr hout => ?scan⟩
  case read => rw [exec_systemRead_eq hr, State.present_read_of_free (s := s.quiet) hp]; rfl
  case waitRead => rw [exec_systemRead_eq hr, State.present_of_held (s := s.quiet) hh]; rfl
  case waitWrite => rw [exec_systemWrite_eq hr, State.present_of_held (s := s.quiet) hh]; rfl
  case scan =>
    refine exec_scanRead_of_pass burst levels order hr fun hd => State.frameLine_eq_none fun d hdec => ?_
    obtain ⟨h0, h1⟩ := hout hd d hdec
    refine Option.eq_none_iff_forall_ne_some.mpr fun o ho => ?_
    rw [DecodeConfig.offset?_eq_some] at ho
    omega

end Sys2Proof.Machine

/-! ## The blend, and the beats of the scan path (R93, R96, R97, R105, R106, R138) -/

namespace Sys2Proof.Machine

/-! ### Pixel words (12.4) -/

theorem bits_eq (w : Word) (lo n : Nat) : bits w lo n = w.toNat / 2 ^ lo % 2 ^ n := by
  rw [bits, BitVec.extractLsb'_toNat, Nat.shiftRight_eq_div_pow]

/-- 12.4: the number of a pixel word. -/
theorem Color.inWord_toNat {c : Color} (hy : c.y ≤ 1023) (hcb : c.cb ≤ 1023) (hcr : c.cr ≤ 1023)
    (w : Word) : (c.inWord w).toNat =
      1024 * (1024 * (1024 * (w.extractLsb' 30 2).toNat + c.y) + c.cb) + c.cr := by
  have append : ∀ {m : Nat} (x : BitVec m) {v : Nat}, v ≤ 1023 →
      (x ++ BitVec.ofNat 10 v).toNat = 1024 * x.toNat + v := fun x v hv => by
    rw [BitVec.toNat_append, ← Nat.shiftLeft_add_eq_or_of_lt (BitVec.isLt _), Nat.shiftLeft_eq,
      BitVec.toNat_ofNat]
    omega
  rw [Color.inWord, append _ hcr, append _ hcb, append _ hy]

/-- 12.4: the components of a pixel word, and its bits 31..30. -/
theorem Color.bits_inWord {c : Color} (hy : c.y ≤ 1023) (hcb : c.cb ≤ 1023) (hcr : c.cr ≤ 1023)
    (w : Word) :
    bits (c.inWord w) 20 10 = c.y ∧ bits (c.inWord w) 10 10 = c.cb ∧ bits (c.inWord w) 0 10 = c.cr ∧
      (c.inWord w).extractLsb' 30 2 = w.extractLsb' 30 2 := by
  have hw := c.inWord_toNat hy hcb hcr w
  have htop := (w.extractLsb' 30 2).isLt
  simp only [bits_eq, hw]
  refine ⟨by omega, by omega, by omega, BitVec.eq_of_toNat_eq ?_⟩
  have htop' := bits_eq (c.inWord w) 30 2
  rw [bits, hw] at htop'
  omega

/-- A pixel word carries bits 31..30 of memory's, whatever its color. -/
theorem Color.extractLsb'_inWord (c : Color) (w : Word) :
    (c.inWord w).extractLsb' 30 2 = w.extractLsb' 30 2 := by
  have hlow : ∀ v : Nat, v % 1024 ≤ 1023 := fun v => Nat.le_of_lt_succ (Nat.mod_lt v (by decide))
  have hmod : ∀ v : Nat, BitVec.ofNat 10 (v % 1024) = BitVec.ofNat 10 v := fun v =>
    BitVec.eq_of_toNat_eq (by simp)
  obtain ⟨_, _, _, htop⟩ := Color.bits_inWord (c := ⟨c.y % 1024, c.cb % 1024, c.cr % 1024⟩)
    (hlow _) (hlow _) (hlow _) w
  simpa only [Color.inWord, hmod] using htop

/-! ### Mixes and the clamp (R104 to R106) -/

/-- R105: a mix lies within the bounds of what it mixes. -/
theorem mix_le {a b w m : Nat} (ha : a ≤ m) (hb : b ≤ m) (hw : w ≤ 256) : mix a b w ≤ m := by
  have h : a * (256 - w) + b * w ≤ m * 256 := by
    calc a * (256 - w) + b * w ≤ m * (256 - w) + m * w :=
          Nat.add_le_add (Nat.mul_le_mul_right _ ha) (Nat.mul_le_mul_right _ hb)
      _ = m * 256 := by rw [← Nat.mul_add, Nat.sub_add_cancel hw]
  unfold mix
  omega

/-- R106: the clamp by cases. -/
theorem legal_eq {hi : Nat} (h : 64 ≤ hi) (v : Nat) :
    legal hi v = if v < 64 then 64 else if hi < v then hi else v := by
  unfold legal
  split
  · omega
  · split <;> omega

/-! ### The blend (R105, R106) -/

/-- R105: the scaled alpha of the band. -/
abbrev scaledAlpha (alpha k g : Nat) : Nat := (mix alpha 256 k * g + 128) / 256

/-- R106: a component of the output pixel. -/
def outComponent (legalize : Bool) (hi v : Nat) : Nat := if legalize then legal hi v else v

theorem outComponent_le {legalize : Bool} {hi v : Nat} (hhi : hi ≤ 1023) (hv : v ≤ 1023) :
    outComponent legalize hi v ≤ 1023 := by
  cases legalize with
  | false => exact hv
  | true => exact Nat.max_le.mpr ⟨by decide, le_trans (Nat.min_le_left _ _) hhi⟩

theorem outComponent_eq {hi : Nat} (h : 64 ≤ hi) (legalize : Bool) (v : Nat) :
    outComponent legalize hi v =
      if legalize = false then v else if v < 64 then 64 else if hi < v then hi else v := by
  cases legalize with
  | false => rfl
  | true => exact legal_eq h v

/-- R105, R106: the output pixel of a word, a band and a scaled alpha. -/
def outColor (w : Word) (band : Color) (a : Nat) (legalize : Bool) : Color :=
  { y := outComponent legalize 940 (mix (bits w 20 10) band.y a)
    cb := outComponent legalize 960 (mix (bits w 10 10) band.cb a)
    cr := outComponent legalize 960 (mix (bits w 0 10) band.cr a) }

theorem scaledAlpha_le {alpha k g : Nat} (ha : alpha ≤ 256) (hk : k ≤ 256) (hg : g ≤ 256) :
    scaledAlpha alpha k g ≤ 256 := by
  have hmix : mix alpha 256 k * g ≤ 256 * 256 := Nat.mul_le_mul (mix_le ha le_rfl hk) hg
  unfold scaledAlpha
  omega

/-- R105: at a scaled alpha of 0 the word is memory's. -/
theorem blendWord_of_zero {alpha k g : Nat} (h : scaledAlpha alpha k g = 0) (w : Word)
    (fill text : Color) (legalize : Bool) : blendWord w fill text alpha k g legalize = w :=
  if_pos h

/-- R105, R106: else the word carries the mix of its color and the band, clamped where the flag is set. -/
theorem blendWord_of_pos {alpha k g : Nat} (h : scaledAlpha alpha k g ≠ 0) (w : Word)
    (fill text : Color) (legalize : Bool) :
    blendWord w fill text alpha k g legalize =
      (outColor w (fill.mix text k) (scaledAlpha alpha k g) legalize).inWord w := by
  refine (if_neg h).trans ?_
  cases legalize <;> rfl

/-- R96, R105: the blend keeps bits 31..30 of every word. -/
theorem blendWord_top (w : Word) (fill text : Color) (alpha k g : Nat) (legalize : Bool) :
    (blendWord w fill text alpha k g legalize).extractLsb' 30 2 = w.extractLsb' 30 2 := by
  by_cases h : scaledAlpha alpha k g = 0
  · rw [blendWord_of_zero h]
  · rw [blendWord_of_pos h]
    exact Color.extractLsb'_inWord _ w

/-- Settles O30: each component of the blend is its mix, clamped, and fits its place in the word. -/
theorem blendArithmetic : Obligations.BlendArithmetic := by
  intro w fill text alpha k g legalize hfy hfcb hfcr hty htcb htcr halpha hk hg band a out o
  have ha : a ≤ 256 := scaledAlpha_le halpha hk hg
  refine ⟨ha, fun hzero => blendWord_of_zero hzero w fill text legalize, fun hpos => ?_⟩
  have hfits : ∀ {lo hi f t : Nat}, hi ≤ 1023 → f ≤ 1023 → t ≤ 1023 →
      outComponent legalize hi (mix (bits w lo 10) (mix f t k) a) ≤ 1023 :=
    fun {lo _ _ _} hhi hf ht =>
      outComponent_le hhi (mix_le (Nat.le_of_lt_succ (bits_lt w lo 10)) (mix_le hf ht hk) ha)
  obtain ⟨hy, hcb, hcr, htop⟩ := Color.bits_inWord (c := outColor w (fill.mix text k) a legalize)
    (hfits (by decide) hfy hty) (hfits (by decide) hfcb htcb) (hfits (by decide) hfcr htcr) w
  have hword : o = (outColor w (fill.mix text k) a legalize).inWord w :=
    blendWord_of_pos (Nat.pos_iff_ne_zero.mp hpos) w fill text legalize
  rw [hword]
  exact ⟨hy.trans (outComponent_eq (by decide) _ _), hcb.trans (outComponent_eq (by decide) _ _),
    hcr.trans (outComponent_eq (by decide) _ _), htop⟩

/-! ### The word under a lane (R97) -/

/-- R97, R138: outside ACTIVE, and while the kill latch is set, no word lies under a lane. -/
theorem State.underLane_of_dark {s : State} (h : s.device ≠ .active ∨ s.cue.latch = true)
    (addr : Nat) : s.underLane addr = none := by
  rw [Option.eq_none_iff_forall_ne_some]
  rintro ⟨n, line, col⟩ hu
  obtain ⟨hactive, hlatch, _⟩ := (State.underLane_eq_some s addr line col n).mp hu
  rcases h with h | h
  · exact h hactive
  · rw [h] at hlatch; cases hlatch

/-- R96: bits 31..30 of every word are returned as read. -/
theorem State.composeWord_top (s : State) (addr : Nat) (w : Word) :
    (s.composeWord addr w).extractLsb' 30 2 = w.extractLsb' 30 2 := by
  unfold State.composeWord
  split
  · unfold State.composeUnder
    dsimp only
    split <;> exact blendWord_top _ _ _ _ _ _ _
  · rfl

theorem State.composeWord_of_dark {s : State} (h : s.device ≠ .active ∨ s.cue.latch = true)
    (addr : Nat) (w : Word) : s.composeWord addr w = w := by
  rw [State.composeWord, State.underLane_of_dark h]

/-! ### Beats (R93, R96) -/

theorem State.composeBeat_get (s : State) (addr : Nat) (ws : Four Word) (i : Fin 4) :
    (s.composeBeat addr ws).get i = s.composeWord (addr + 4 * i.val) (ws.get i) := by
  match i with
  | 0 => rfl
  | 1 => rfl
  | 2 => rfl
  | 3 => rfl

theorem State.composeBeat_of_dark {s : State} (h : s.device ≠ .active ∨ s.cue.latch = true)
    (addr : Nat) (ws : Four Word) : s.composeBeat addr ws = ws := by
  simp only [State.composeBeat, State.composeWord_of_dark h]

theorem exec_scanBeat_okay {s : State} (hr : s.pins.resetN = true) (index : BitVec 28)
    (ws : Four Word) : exec (.scanBeat index ws .okay) s =
      .next { s with out := [.scanData (s.composeBeat (16 * index.toNat) ws) .okay] } :=
  congrArg Host.Outcome.next (if_pos hr)

theorem exec_scanBeat_error {s : State} (hr : s.pins.resetN = true) (index : BitVec 28)
    (ws : Four Word) : exec (.scanBeat index ws .error) s =
      .next { s with out := [.scanData ws .error] } :=
  congrArg Host.Outcome.next (if_pos hr)

/-- Settles O29: a beat by memory's response, its words by the lane that they lie under. -/
theorem scanBeats : Obligations.ScanBeats := by
  refine ⟨fun s index ws reply hr => ?beat, fun s addr hr => congrArg Host.Outcome.next (if_pos hr)⟩
  case beat =>
    cases reply with
    | okay =>
      refine ⟨_, exec_scanBeat_okay hr index ws, fun hdark => ?_, fun _ i => ?_, fun i => ?_⟩
      · refine State.composeBeat_of_dark ?_ _ ws
        simpa using hdark
      · exact s.composeBeat_get _ ws i
      · rw [s.composeBeat_get]
        exact s.composeWord_top _ _
    | error => exact ⟨ws, exec_scanBeat_error hr index ws, fun _ => rfl, nofun, fun _ => rfl⟩

end Sys2Proof.Machine

/-! ## The sampling of a cue input (R129, R132 to R134) -/

namespace Sys2Proof.Machine

/-! ### Samples and edges (R132) -/

/-- R132: the filter accepts a level at its third equal sample. -/
theorem CueInput.sample_eq (i : CueInput) (level : Bool) :
    i.sample level =
      let run := if level = i.last then (if i.run < 3 then i.run + 1 else 3) else 1
      { i with last := level, run := run
               accepted := if i.filter = false ∨ run = 3 then level else i.accepted } := by
  have hrun : min 3 (i.run + 1) = if i.run < 3 then i.run + 1 else 3 := by
    split <;> omega
  unfold CueInput.sample
  simp only [hrun, Bool.or_eq_true, Bool.not_eq_true', beq_iff_eq]

/-- R132: the selected edges of a change of the accepted level. -/
theorem Edge.selects_iff (e : Edge) (old new : Bool) :
    e.selects old new = true ↔
      (e ≠ .fall ∧ old = false ∧ new = true) ∨ (e ≠ .rise ∧ old = true ∧ new = false) := by
  cases e with
  | rise => simp [Edge.selects]
  | fall => simp [Edge.selects]
  | both => cases old <;> cases new <;> decide

/-- R132: input `n` with its sample taken. -/
def State.sampledInput (s : State) (n : Fin 4) : CueInput :=
  (s.cue.inputs.get n).sample (s.pins.cueIn.get n)

/-- R132: the sample of input `n` makes an edge that its setting selects. -/
def State.CueFires (s : State) (n : Fin 4) : Prop :=
  (s.cue.inputs.get n).edge.selects (s.cue.inputs.get n).accepted (s.sampledInput n).accepted = true

/-! ### The lanes of a mask (R2) -/

/-- R2: the lanes one after another, with a note whether one has refused. -/
theorem State.overLanes_eq_foldl (act : State → Fin 4 → State × Option ResultCode) :
    ∀ (ns : List (Fin 4)) (s : State) (b : Bool),
      ((State.overLanes act s ns).1, b || (State.overLanes act s ns).2.isSome) =
        ns.foldl (fun x m => ((act x.1 m).1, x.2 || (act x.1 m).2.isSome)) (s, b)
  | [], s, b => by simp [State.overLanes]
  | n :: ns, s, b => by
    rw [List.foldl_cons, ← State.overLanes_eq_foldl act ns]
    simp only [State.overLanes, Bool.or_assoc]
    cases (act s n).2 <;> rfl

/-- R129, R133: a fired action by its fold over the four lanes. -/
theorem State.fireOnLanes_eq_foldl (s : State) (a : LaneAction) (mask : BitVec 4) :
    let r := fours.foldl (fun (x : State × Bool) (m : Fin 4) =>
      if mask.getLsbD m.val then ((x.1.actOnLane a m).1, x.2 || (x.1.actOnLane a m).2.isSome) else x)
      (s, false)
    s.fireOnLanes a mask = if r.2 = true then r.1.raise .actionRefused else r.1 := by
  intro r
  have hr : r = ((State.overLanes (fun s n => s.actOnLane a n) s (maskLanes mask)).1,
      (State.overLanes (fun s n => s.actOnLane a n) s (maskLanes mask)).2.isSome) := by
    have h := State.overLanes_eq_foldl (fun s n => s.actOnLane a n) (maskLanes mask) s false
    rw [Bool.false_or] at h
    exact (h.trans List.foldl_filter).symm
  rw [hr]
  rfl

/-- The least of the four that a test holds of is the first that passes it. -/
theorem find?_fours_of_least {p : Fin 4 → Bool} {m : Fin 4} (hm : p m = true)
    (hlow : ∀ k : Fin 4, k < m → p k = false) : fours.find? p = some m := by
  match m with
  | 0 => simp [hm]
  | 1 => simp [hm, hlow 0 (by decide)]
  | 2 => simp [hm, hlow 0 (by decide), hlow 1 (by decide)]
  | 3 => simp [hm, hlow 0 (by decide), hlow 1 (by decide), hlow 2 (by decide)]

/-- R134: the lowest-numbered lane of a mask. -/
theorem maskLanes_of_lowest {mask : BitVec 4} {m : Fin 4} (hm : mask.getLsbD m.val = true)
    (hlow : ∀ k : Fin 4, k < m → mask.getLsbD k.val = false) :
    ∃ ms, maskLanes mask = m :: ms := by
  have hhead : (maskLanes mask).head? = some m := by
    rw [maskLanes, List.head?_filter]
    exact find?_fours_of_least (p := fun k => mask.getLsbD k.val) hm hlow
  exact List.head?_eq_some_iff.mp hhead

/-! ### One input's sample (R132 to R134) -/

section
variable {s : State} {n : Fin 4}

theorem State.setInput_setInput (i j : CueInput) : (s.setInput n i).setInput n j = s.setInput n j := by
  simp only [State.setInput, Four.set_set]

/-- R132: without a selected edge, or an action, the sample is all. -/
theorem State.sampleCue_of_silent (h : ¬ s.CueFires n ∨ (s.cue.inputs.get n).action = .none) :
    s.sampleCue n = s.setInput n (s.sampledInput n) := by
  unfold State.sampleCue
  dsimp only
  split
  case isFalse => rfl
  case isTrue hfires =>
    have haction : (s.cue.inputs.get n).action = .none := h.resolve_left fun hn => hn hfires
    simp only [State.fireCue, State.setInput_inputs, Four.get_set_self]
    rw [show ((s.cue.inputs.get n).sample (s.pins.cueIn.get n)).action = .none from haction]
    rfl

/-- R133: a selected edge with a lane action. -/
theorem State.sampleCue_of_lane {a : LaneAction} (ha : (s.cue.inputs.get n).action = .lane a)
    (h : s.CueFires n) : s.sampleCue n =
      (s.setInput n (s.sampledInput n)).fireOnLanes a (s.cue.inputs.get n).mask := by
  refine (if_pos h).trans ?_
  simp only [State.fireCue, State.setInput_inputs, Four.get_set_self]
  rw [show ((s.cue.inputs.get n).sample (s.pins.cueIn.get n)).action = .lane a from ha]
  rfl

/-- R134: a selected edge with CAPTURE writes the record from the first lane of the mask. -/
theorem State.sampleCue_of_capture {m : Fin 4} {ms : List (Fin 4)}
    (ha : (s.cue.inputs.get n).action = .capture) (hm : maskLanes (s.cue.inputs.get n).mask = m :: ms)
    (h : s.CueFires n) : s.sampleCue n =
      (s.setInput n { s.sampledInput n with
        capture := (s.cue.inputs.get n).capture.taken s m }).raise (.cueCapture n) := by
  refine (if_pos h).trans ?_
  simp only [State.fireCue, State.setInput_inputs, Four.get_set_self]
  rw [show ((s.cue.inputs.get n).sample (s.pins.cueIn.get n)).action = .capture from ha]
  simp only [State.captureCue, State.setInput_inputs, Four.get_set_self]
  rw [show maskLanes ((s.cue.inputs.get n).sample (s.pins.cueIn.get n)).mask = m :: ms from hm]
  simp only [State.setInput_setInput]
  rfl

end

/-- R134: the entry under the cue column, where one covers it. -/
theorem Lane.mem_of_atCue {l : Lane} {x : Nat × Placement} (h : l.atCue = some x) :
    x ∈ l.entries ∧ x.2.Covers ((l.offset / 256 : Nat) + (l.motion.cueColumn : Int)) :=
  ⟨List.mem_of_find?_eq_some h, (x.2.covers_iff _).mp (List.find?_eq_some_iff_append.mp h).1⟩

theorem Lane.not_covers_of_atCue {l : Lane} (h : l.atCue = none) :
    ∀ x ∈ l.entries, ¬ x.2.Covers ((l.offset / 256 : Nat) + (l.motion.cueColumn : Int)) :=
  fun x hx hc => List.find?_eq_none.mp h x hx ((x.2.covers_iff _).mpr hc)

end Sys2Proof.Machine

/-! ## The shares of a scan read (R94, R131, R132, R161, R162; notes/assumptions/4.md) -/

namespace Sys2Proof

theorem Four.ext_get {α : Type} {f g : Four α} (h : ∀ n, f.get n = g.get n) : f = g := by
  obtain ⟨f0, f1, f2, f3⟩ := f
  obtain ⟨g0, g1, g2, g3⟩ := g
  obtain rfl : f0 = g0 := h 0
  obtain rfl : f1 = g1 := h 1
  obtain rfl : f2 = g2 := h 2
  obtain rfl : f3 = g3 := h 3
  rfl

theorem nodup_eraseDups {α : Type} [DecidableEq α] : ∀ l : List α, l.eraseDups.Nodup
  | [] => by simp
  | a :: l => by
    rw [List.eraseDups_cons, List.nodup_cons, List.mem_eraseDups]
    exact ⟨by simp, nodup_eraseDups (l.filter fun b => !b == a)⟩
termination_by l => l.length
decreasing_by exact Nat.lt_succ_of_le (List.length_filter_le _ l)

namespace Machine

/-! ### What the sampling leaves of what the report line event reads (R161) -/

/-- What the sampling of cue inputs leaves: the configuration, the own writes, the taken flag and the
line register. -/
structure State.SampleFrame (s t : State) : Prop where
  conf    : t.conf = s.conf
  own     : t.own = s.own
  taken   : t.rep.taken = s.rep.taken
  lineReg : t.cue.lineReg = s.cue.lineReg

theorem State.SampleFrame.refl (s : State) : s.SampleFrame s := ⟨rfl, rfl, rfl, rfl⟩

theorem State.SampleFrame.trans {s t u : State} (h : s.SampleFrame t) (k : t.SampleFrame u) :
    s.SampleFrame u :=
  ⟨k.conf.trans h.conf, k.own.trans h.own, k.taken.trans h.taken, k.lineReg.trans h.lineReg⟩

theorem State.SampleFrame.actOnLane (s : State) (a : LaneAction) (n : Fin 4) :
    s.SampleFrame (s.actOnLane a n).1 := by
  obtain ⟨l, hl⟩ := s.actOnLane_frame a n
  rw [hl]
  exact ⟨rfl, rfl, rfl, rfl⟩

theorem sampleFrame_firing (s : State) : KeptByFiring s.SampleFrame where
  clock := fun _ _ h => h.trans ⟨rfl, rfl, rfl, rfl⟩
  sched := fun _ _ _ h => h.trans ⟨rfl, rfl, rfl, rfl⟩
  raise := fun _ _ h => h.trans ⟨rfl, rfl, rfl, rfl⟩
  act := fun t a n h => h.trans (.actOnLane t a n)
  style := fun _ _ _ h => h.trans ⟨rfl, rfl, rfl, rfl⟩

theorem State.SampleFrame.sampleCue (s : State) (n : Fin 4) : s.SampleFrame (s.sampleCue n) := by
  unfold State.sampleCue
  dsimp only
  split
  · unfold State.fireCue
    split
    · exact ⟨rfl, rfl, rfl, rfl⟩
    · unfold State.captureCue
      dsimp only
      split <;> exact ⟨rfl, rfl, rfl, rfl⟩
    · exact (sampleFrame_firing s).fireOnLanes _ _ ⟨rfl, rfl, rfl, rfl⟩
  · exact ⟨rfl, rfl, rfl, rfl⟩

theorem State.SampleFrame.foldl : ∀ (ns : List (Fin 4)) (s : State),
    s.SampleFrame (ns.foldl State.sampleCue s)
  | [], s => .refl s
  | n :: ns, s => (State.SampleFrame.sampleCue s n).trans (.foldl ns _)

/-! ### The report line event (R161, R162) -/

/-- R161: a frame line at or beyond the report line, the taken flag clear, no report being written. -/
abbrev State.ReportEvent (s : State) (line : Nat) : Prop :=
  (∃ r, s.conf.reportLine = some r ∧ r ≤ line) ∧ s.rep.taken = false ∧ s.own.reports = []

theorem State.reportLineDue_iff (s : State) (line : Nat) :
    s.reportLineDue line = true ↔ s.ReportEvent line := by
  simp only [State.reportLineDue, Bool.and_eq_true, Option.any_eq_true, decide_eq_true_eq,
    Bool.not_eq_true', List.isEmpty_iff, and_assoc]

/-- R162: the state with the report of a snapshot of its own handed over, none being written. -/
def State.reported (s : State) : State :=
  { s with
    rep := { s.rep with taken := true }
    own := { s.own with reports :=
      [{ anchor := s.conf.anchor, next := 0, words := s.reportWords
         ahead := s.own.writeBack.length }] } }

theorem State.examineLine_of_event {s : State} {line : Nat} (h : s.ReportEvent line) :
    s.examineLine line = s.reported := by
  have ⟨_, _, hidle⟩ := h
  refine (if_pos ((s.reportLineDue_iff line).mpr h)).trans ?_
  rw [State.snapshot, hidle]
  rfl

theorem State.examineLine_of_not {s : State} {line : Nat} (h : ¬ s.ReportEvent line) :
    s.examineLine line = s :=
  if_neg (mt (s.reportLineDue_iff line).mp h)

/-- R161: what has been sampled does not decide whether the read is the report line event. -/
theorem State.SampleFrame.reportEvent {s t : State} (h : s.SampleFrame t) (line : Nat) :
    t.ReportEvent line ↔ s.ReportEvent line := by
  rw [State.ReportEvent, h.conf, h.own, h.taken]

/-! ### The order of the shares (notes/assumptions/4.md) -/

/-- The input that a share samples. -/
def ReadTok.cue? : ReadTok → Option (Fin 4)
  | .cue n => some n
  | .report => none

/-- The inputs that shares name, in their order. -/
abbrev cuesOf (ts : List ReadTok) : List (Fin 4) := ts.filterMap ReadTok.cue?

theorem mem_cuesOf {ts : List ReadTok} {n : Fin 4} : n ∈ cuesOf ts ↔ .cue n ∈ ts := by
  rw [List.mem_filterMap]
  constructor
  · rintro ⟨t, ht, hn⟩
    cases t with
    | cue m => cases hn; exact ht
    | report => cases hn
  · exact fun h => ⟨_, h, rfl⟩

/-- An order with the shares that it does not name, the report writer's apart. -/
abbrev namedCues (order : List ReadTok) : List ReadTok := order ++ [.cue 0, .cue 1, .cue 2, .cue 3]

/-- The shares before the report writer's. -/
abbrev earlyToks (order : List ReadTok) : List ReadTok := (namedCues order).takeWhile (· != .report)

theorem report_notMem_earlyToks (order : List ReadTok) : .report ∉ earlyToks order :=
  fun h => by simpa using List.mem_takeWhile_imp h

/-- The report writer's share comes once all earlier shares are taken, and then the others. -/
theorem order_split (order : List ReadTok) :
    ∃ post, order ++ readDefault = earlyToks order ++ .report :: post := by
  have hsplit := List.takeWhile_append_dropWhile (p := (· != ReadTok.report)) (l := namedCues order)
  have hdefault : order ++ readDefault = namedCues order ++ [.report] := by
    rw [List.append_assoc]; rfl
  rw [hdefault]
  cases hdrop : (namedCues order).dropWhile (· != .report) with
  | nil =>
    rw [hdrop, List.append_nil] at hsplit
    exact ⟨[], by rw [earlyToks, hsplit]⟩
  | cons t ts =>
    have ht : t = .report := by
      have := List.head?_dropWhile_not (· != ReadTok.report) (namedCues order)
      rw [hdrop] at this
      simpa using this
    refine ⟨ts ++ [.report], ?_⟩
    conv_lhs => rw [← hsplit, hdrop, ht, List.append_assoc]
    rfl

/-- Shares before the report writer's sample each input that they name and that is left, once, in the
order in which they first name it. -/
theorem State.foldl_readTok (line : Nat) (b : Bool) : ∀ (ts : List ReadTok) (s : State)
    (cues : List (Fin 4)), cues.Nodup → (b = true → .report ∉ ts) →
      ts.foldl (State.readTok line) (s, { cues := cues, report := b }) =
        (((cuesOf ts).filter (· ∈ cues)).eraseDups.foldl State.sampleCue s,
          { cues := cues.filter (· ∉ cuesOf ts), report := b })
  | [], s, cues, _, _ => by simp
  | .report :: ts, s, cues, hcues, hb => by
    have hfalse : b = false := by
      cases b with
      | false => rfl
      | true => exact absurd List.mem_cons_self (hb rfl)
    subst hfalse
    exact State.foldl_readTok line false ts s cues hcues nofun
  | .cue n :: ts, s, cues, hcues, hb => by
    have ih := fun t c hc =>
      State.foldl_readTok line b ts t c hc fun h hm => hb h (List.mem_cons_of_mem _ hm)
    have hnamed : cuesOf (.cue n :: ts) = n :: cuesOf ts := rfl
    rw [List.foldl_cons, hnamed]
    by_cases hn : n ∈ cues
    · have hstep : State.readTok line (s, { cues := cues, report := b }) (.cue n) =
          (s.sampleCue n, { cues := cues.erase n, report := b }) :=
        if_pos (List.contains_iff_mem.mpr hn)
      have hleft : (cuesOf ts).filter (· ∈ cues.erase n) =
          ((cuesOf ts).filter (· ∈ cues)).filter fun m => !m == n := by
        rw [List.filter_filter]
        exact List.filter_congr fun m _ => by simp [hcues.mem_erase_iff, beq_eq_decide]
      have hrest : (cues.erase n).filter (· ∉ cuesOf ts) = cues.filter (· ∉ n :: cuesOf ts) := by
        rw [hcues.erase_eq_filter, List.filter_filter]
        exact List.filter_congr fun m _ => by
          simp only [List.mem_cons, not_or, bne, beq_eq_decide, Bool.decide_and, decide_not, Bool.and_comm]
      rw [hstep, ih _ _ (hcues.erase n), hleft, List.filter_cons_of_pos (by simpa using hn),
        List.eraseDups_cons, List.foldl_cons, hrest]
    · have hstep : State.readTok line (s, { cues := cues, report := b }) (.cue n) =
          (s, { cues := cues, report := b }) :=
        if_neg (mt List.contains_iff_mem.mp hn)
      rw [hstep, ih _ _ hcues, List.filter_cons_of_neg (by simpa using hn)]
      congr 2
      refine List.filter_congr fun m hm => ?_
      have hmn : m ≠ n := fun h => hn (h ▸ hm)
      simp only [List.mem_cons, hmn, false_or]

/-- The shares of an order: the samples before the report writer's share, its examination, and the
other samples. -/
theorem State.foldl_readTok_order {order post : List ReadTok}
    (hpost : order ++ readDefault = earlyToks order ++ .report :: post) (line : Nat) (s : State)
    {cues : List (Fin 4)} (hcues : cues.Nodup) :
    ((order ++ readDefault).foldl (State.readTok line) (s, { cues := cues, report := true })).1 =
      ((cuesOf post).filter (· ∈ cues.filter (· ∉ cuesOf (earlyToks order)))).eraseDups.foldl
        State.sampleCue
        ((((cuesOf (earlyToks order)).filter (· ∈ cues)).eraseDups.foldl State.sampleCue s).examineLine
          line) := by
  have hearly := State.foldl_readTok line true (earlyToks order) s cues hcues
    fun _ => report_notMem_earlyToks order
  have hreport : ∀ (t : State) (left : List (Fin 4)),
      State.readTok line (t, { cues := left, report := true }) .report =
        (t.examineLine line, { cues := left, report := false }) := fun _ _ => rfl
  rw [hpost, List.foldl_append, hearly, List.foldl_cons, hreport,
    State.foldl_readTok line false post _ _ (hcues.filter _) nofun]

/-! ### A frame line handed on (R94, R131, R161) -/

/-- R131: the line register takes the line. -/
def State.noteLine (s : State) (line : Nat) : State :=
  { s with cue := { s.cue with lineReg := some line } }

/-- The inputs sampled before the report writer's share, and behind it. -/
def earlyCues (order : List ReadTok) : List (Fin 4) := (cuesOf (earlyToks order)).eraseDups

def lateCues (order : List ReadTok) : List (Fin 4) :=
  (cuesOf (namedCues order)).eraseDups.filter (· ∉ earlyCues order)

theorem mem_earlyCues {order : List ReadTok} {n : Fin 4} :
    n ∈ earlyCues order ↔ .cue n ∈ earlyToks order := by
  rw [earlyCues, List.mem_eraseDups, mem_cuesOf]

theorem mem_namedCues (order : List ReadTok) (n : Fin 4) : .cue n ∈ namedCues order := by
  refine List.mem_append_right order ?_
  match n with
  | 0 => decide
  | 1 => decide
  | 2 => decide
  | 3 => decide

theorem mem_lateCues {order : List ReadTok} {n : Fin 4} :
    n ∈ lateCues order ↔ n ∉ earlyCues order := by
  rw [lateCues, List.mem_filter, List.mem_eraseDups, mem_cuesOf, decide_eq_true_eq]
  exact and_iff_right (mem_namedCues order n)

/-- The inputs in the order in which they are sampled. -/
theorem eraseDups_cuesOf_split {order post : List ReadTok}
    (h : order ++ readDefault = earlyToks order ++ .report :: post) :
    (cuesOf (namedCues order)).eraseDups =
        earlyCues order ++ ((cuesOf post).filter (· ∉ cuesOf (earlyToks order))).eraseDups ∧
      lateCues order = ((cuesOf post).filter (· ∉ cuesOf (earlyToks order))).eraseDups := by
  have hcues : cuesOf (namedCues order) = cuesOf (earlyToks order) ++ cuesOf post := by
    have hfull := congrArg cuesOf h
    simp only [cuesOf, List.filterMap_append] at hfull ⊢
    exact hfull
  have hall : (cuesOf (namedCues order)).eraseDups =
      earlyCues order ++ ((cuesOf post).filter (· ∉ cuesOf (earlyToks order))).eraseDups := by
    rw [hcues, List.eraseDups_append]
    congr 2
    exact List.filter_congr fun m _ => by simp only [List.elem_eq_mem, decide_not]
  refine ⟨hall, ?_⟩
  rw [lateCues, hall, List.filter_append, List.filter_eq_nil_iff.mpr (by simp), List.nil_append]
  exact List.filter_eq_self.mpr fun m hm => by
    simpa [earlyCues] using List.of_mem_filter (List.mem_eraseDups.mp hm)

/-- R94, R132, R161: at a line start each input is sampled once, and the report writer examines the line
once the early ones are. -/
theorem State.handLine_of_start {s : State} {line : Nat} (h : s.cue.lineReg ≠ some line)
    (order : List ReadTok) :
    s.handLine line order = (lateCues order).foldl State.sampleCue
      (((earlyCues order).foldl State.sampleCue (s.noteLine line)).examineLine line) := by
  have hstart : s.lineStarts line = true := by simpa [State.lineStarts] using h
  obtain ⟨post, hpost⟩ := order_split order
  have hshares := State.foldl_readTok_order hpost line (s.noteLine line) (cues := fours) (by decide)
  simp only [mem_fours, decide_true, List.filter_true, List.mem_filter, true_and,
    decide_eq_true_eq] at hshares
  unfold State.handLine
  rw [hstart, (eraseDups_cuesOf_split hpost).2]
  exact hshares

/-- R131, R161: where the register holds the line, the report writer alone takes its share. -/
theorem State.handLine_of_same {s : State} {line : Nat} (h : s.cue.lineReg = some line)
    (order : List ReadTok) : s.handLine line order = s.examineLine line := by
  have hstart : s.lineStarts line = false := by simpa [State.lineStarts] using h
  have hnote : s.noteLine line = s := by rw [State.noteLine, ← h]
  obtain ⟨post, hpost⟩ := order_split order
  have hshares := State.foldl_readTok_order hpost line (s.noteLine line) (cues := []) .nil
  unfold State.handLine
  rw [hstart]
  refine hshares.trans ?_
  simp [hnote]

end Machine
end Sys2Proof

/-! ## Line starts and the report line event (R94, R131 to R134, R161, R162) -/

namespace Sys2Proof.Machine

/-! ### The sampled inputs, before and behind the report writer's share -/

theorem earlyCues_append_lateCues (order : List ReadTok) :
    earlyCues order ++ lateCues order = (cuesOf (namedCues order)).eraseDups := by
  obtain ⟨post, hpost⟩ := order_split order
  obtain ⟨hall, hlate⟩ := eraseDups_cuesOf_split hpost
  rw [hall, hlate]

/-- The early inputs are those that the order names before the report writer, or all where it does not
name it. -/
theorem earlyCues_eq (order : List ReadTok) :
    earlyCues order =
      if .report ∈ order then (cuesOf (order.takeWhile (· != .report))).eraseDups
      else (cuesOf (namedCues order)).eraseDups := by
  unfold earlyCues
  split
  case isTrue hmem =>
    have hshort : ¬ (order.takeWhile (· != .report)).length = order.length := fun hlen => by
      have hself := (List.takeWhile_prefix (l := order) (· != ReadTok.report)).eq_of_length hlen
      rw [← hself] at hmem
      simpa using List.mem_takeWhile_imp hmem
    rw [earlyToks, List.takeWhile_append, if_neg hshort]
  case isFalse hmem =>
    have hall : earlyToks order = namedCues order := List.takeWhile_eq_self_iff.mpr fun t ht => by
      have hne : t ≠ .report := fun h => by simp [h, hmem] at ht
      simpa using hne
    rw [hall]

theorem nodup_earlyCues (order : List ReadTok) : (earlyCues order).Nodup := nodup_eraseDups _

theorem nodup_lateCues (order : List ReadTok) : (lateCues order).Nodup := (nodup_eraseDups _).filter _

/-! ### A line start that is the report line event, or is not (R161) -/

section
variable {s : State} {line : Nat} (order : List ReadTok)

theorem State.handLine_of_not_event (hstart : s.cue.lineReg ≠ some line)
    (h : ¬ s.ReportEvent line) : s.handLine line order =
      (cuesOf (namedCues order)).eraseDups.foldl State.sampleCue (s.noteLine line) := by
  have hearly := State.SampleFrame.foldl (earlyCues order) (s.noteLine line)
  rw [State.handLine_of_start hstart, State.examineLine_of_not (mt (hearly.reportEvent line).mp h),
    ← List.foldl_append, earlyCues_append_lateCues]

theorem State.handLine_of_event (hstart : s.cue.lineReg ≠ some line)
    (h : s.ReportEvent line) : s.handLine line order =
      (lateCues order).foldl State.sampleCue
        ((earlyCues order).foldl State.sampleCue (s.noteLine line)).reported := by
  have hearly := State.SampleFrame.foldl (earlyCues order) (s.noteLine line)
  rw [State.handLine_of_start hstart, State.examineLine_of_event ((hearly.reportEvent line).mpr h)]

/-- R131: a frame line handed on stands in the line register. -/
theorem State.lineReg_handLine (s : State) (line : Nat) :
    (s.handLine line order).cue.lineReg = some line := by
  by_cases hsame : s.cue.lineReg = some line
  · rw [State.handLine_of_same hsame, State.examineLine]
    split <;> exact hsame
  · by_cases hevent : s.ReportEvent line
    · rw [State.handLine_of_event order hsame hevent]
      exact (State.SampleFrame.foldl _ _).lineReg.trans
        (State.SampleFrame.foldl _ (s.noteLine line)).lineReg
    · rw [State.handLine_of_not_event order hsame hevent]
      exact (State.SampleFrame.foldl _ _).lineReg

end

/-! ### Inputs without an action (R132) -/

/-- The state with its cue inputs replaced. -/
def State.withInputs (s : State) (f : Fin 4 → CueInput) : State :=
  { s with cue := { s.cue with inputs := ⟨f 0, f 1, f 2, f 3⟩ } }

theorem State.withInputs_setInput (s : State) (n : Fin 4) (i : CueInput) (f : Fin 4 → CueInput) :
    (s.setInput n i).withInputs f = s.withInputs f := rfl

@[simp] theorem State.get_withInputs (s : State) (f : Fin 4 → CueInput) (n : Fin 4) :
    (s.withInputs f).cue.inputs.get n = f n := by
  match n with
  | 0 => rfl
  | 1 => rfl
  | 2 => rfl
  | 3 => rfl

theorem State.reported_cue (s : State) : s.reported.cue = s.cue := rfl

/-- R132: inputs without an action that are sampled once each. -/
theorem State.foldl_sampleCue_silent : ∀ (ns : List (Fin 4)) (s : State), ns.Nodup →
    (∀ n, (s.cue.inputs.get n).action = .none) →
      ns.foldl State.sampleCue s =
        s.withInputs fun n => if n ∈ ns then s.sampledInput n else s.cue.inputs.get n
  | [], s, _, _ => by simp [State.withInputs, Four.get]
  | n :: ns, s, hns, hsilent => by
    obtain ⟨hn, hns⟩ := List.nodup_cons.mp hns
    have hset : ∀ m, ((s.setInput n (s.sampledInput n)).cue.inputs.get m) =
        if m = n then s.sampledInput n else s.cue.inputs.get m := fun m => Four.get_set _ m n _
    have hsilent' : ∀ m, ((s.setInput n (s.sampledInput n)).cue.inputs.get m).action = .none := by
      intro m
      rw [hset]
      split
      · exact hsilent n
      · exact hsilent m
    rw [List.foldl_cons, State.sampleCue_of_silent (.inr (hsilent n)),
      State.foldl_sampleCue_silent ns _ hns hsilent']
    rw [State.withInputs_setInput]
    refine congrArg s.withInputs (funext fun m => ?_)
    have hsampled : (s.setInput n (s.sampledInput n)).sampledInput m =
        (if m = n then s.sampledInput n else s.cue.inputs.get m).sample (s.pins.cueIn.get m) :=
      congrArg (CueInput.sample · _) (hset m)
    rw [hsampled, hset]
    by_cases hmn : m = n
    · subst hmn; simp [hn]
    · simp [hmn, State.sampledInput]

/-- R132, R161: with no action the samples before the snapshot show in it, and every input is sampled. -/
theorem State.handLine_silent {s : State} {line : Nat} (hstart : s.cue.lineReg ≠ some line)
    (hsilent : ∀ n, (s.cue.inputs.get n).action = .none) (order : List ReadTok) :
    (¬ s.ReportEvent line → s.handLine line order = (s.noteLine line).withInputs s.sampledInput) ∧
    (s.ReportEvent line → s.handLine line order =
      (((s.noteLine line).withInputs fun n =>
        if .cue n ∈ earlyToks order then s.sampledInput n else s.cue.inputs.get n).reported).withInputs
        s.sampledInput) := by
  refine ⟨fun h => ?_, fun h => ?_⟩
  · rw [State.handLine_of_not_event order hstart h,
      State.foldl_sampleCue_silent _ (s.noteLine line) (nodup_eraseDups _) hsilent]
    refine congrArg (s.noteLine line).withInputs (funext fun n => if_pos ?_)
    exact List.mem_eraseDups.mpr (mem_cuesOf.mpr (mem_namedCues order n))
  · have hearly := State.foldl_sampleCue_silent (earlyCues order) (s.noteLine line)
      (nodup_earlyCues order) hsilent
    have hseen : (fun n => if n ∈ earlyCues order then (s.noteLine line).sampledInput n
        else (s.noteLine line).cue.inputs.get n) = fun n =>
          if .cue n ∈ earlyToks order then s.sampledInput n else s.cue.inputs.get n :=
      funext fun n => by simp only [mem_earlyCues]; rfl
    rw [State.handLine_of_event order hstart h, hearly, hseen]
    generalize hx : ((s.noteLine line).withInputs fun n =>
      if .cue n ∈ earlyToks order then s.sampledInput n else s.cue.inputs.get n).reported = x
    have hget : ∀ n, x.cue.inputs.get n =
        if .cue n ∈ earlyToks order then s.sampledInput n else s.cue.inputs.get n := fun n => by
      rw [← hx, State.reported_cue, State.get_withInputs]
    have hpins : x.pins = s.pins := by rw [← hx]; rfl
    rw [State.foldl_sampleCue_silent _ x (nodup_lateCues order) fun n => by
      rw [hget]; split <;> exact hsilent n]
    refine congrArg x.withInputs (funext fun n => ?_)
    rw [State.sampledInput, hget, hpins]
    by_cases hn : .cue n ∈ earlyToks order
    · have hlate : n ∉ lateCues order := fun h => mem_lateCues.mp h (mem_earlyCues.mpr hn)
      simp only [hlate, hn, if_true, if_false]
    · have hlate : n ∈ lateCues order := mem_lateCues.mpr (mt mem_earlyCues.mp hn)
      simp only [hlate, hn, if_true, if_false]
      rfl

/-! ### The statement -/

/-- Settles O28: the frame line by the window that decodes it, a read by whether it is a line start and
the report line event, one sample by its edge and the input's action. -/
theorem lineStartsAndReports : Obligations.LineStartsAndReports := by
  refine ⟨?line, ?same, ?start⟩
  case line =>
    intro s addr decodes
    refine ⟨fun d o hd ho => ?_, fun hout => ?_⟩
    · have hline := State.frameLine_of_offset hd ((d.offset?_eq_some addr.toNat o).mpr ho)
      exact ⟨hline, fun burst levels order hair =>
        ⟨_, exec_scanRead_of_line burst levels order hair hline, State.lineReg_handLine order _ _⟩⟩
    · refine State.frameLine_eq_none fun d hd => Option.eq_none_iff_forall_ne_some.mpr fun o ho => ?_
      exact hout d o hd ((d.offset?_eq_some addr.toNat o).mp ho)
  case same =>
    intro s addr burst line levels order hair hline hsame s1
    have hsame' : (s.scanPassed addr burst levels).cue.lineReg = some line := hsame
    rw [exec_scanRead_of_line burst levels order hair hline, State.handLine_of_same hsame']
    split
    case isTrue hevent => rw [State.examineLine_of_event (s := s.scanPassed addr burst levels) hevent]; rfl
    case isFalse hevent => rw [State.examineLine_of_not (s := s.scanPassed addr burst levels) hevent]; rfl
  case start =>
    intro sampled
    have hsampled : sampled = CueInput.sample := funext₂ fun i level => (i.sample_eq level).symm
    clear_value sampled
    subst hsampled
    refine ⟨?read, ?sample⟩
    case read =>
      intro s addr burst line levels order hair hline hstart s1 cues event
      have hstart' : (s.scanPassed addr burst levels).cue.lineReg ≠ some line := hstart
      have hcues : cues = cuesOf (namedCues order) := by
        rw [cuesOf, List.filterMap_append]; rfl
      rw [exec_scanRead_of_line burst levels order hair hline]
      refine ⟨fun hevent => ?_, ?_, fun hsilent => ?_⟩
      · rw [State.handLine_of_not_event order hstart' hevent, hcues]
        rfl
      · intro hevent before early x shown
        have hearly : early = earlyCues order := by rw [earlyCues_eq, ← hcues]; rfl
        have hlate : cues.eraseDups.filter (· ∉ early) = lateCues order := by rw [hearly, hcues]; rfl
        rw [State.handLine_of_event order hstart' hevent, hlate]
        have hx : s1.SampleFrame x := .foldl early s1
        have hanchor : x.conf.anchor = s.conf.anchor := congrArg Conf.anchor hx.conf
        have hahead : x.own.writeBack = s.own.writeBack := congrArg OwnWrites.writeBack hx.own
        have hshown : shown = x.reported := by rw [State.reported, hanchor, hahead]
        rw [hshown, ← hearly]
        rfl
      · intro inputs s2 early seen shown
        obtain ⟨hno, hyes⟩ := State.handLine_silent hstart' hsilent order
        split
        case isTrue hevent => rw [hyes hevent]; rfl
        case isFalse hevent => rw [hno hevent]; rfl
    case sample =>
      intro s n i i' fires s1
      have hfires : s.CueFires n ↔ fires := i.edge.selects_iff i.accepted i'.accepted
      refine ⟨fun h => State.sampleCue_of_silent (h.imp_left (mt hfires.mp)), ?lane, ?capture⟩
      case lane =>
        intro a ha hf go r
        rw [State.sampleCue_of_lane ha (hfires.mpr hf), State.fireOnLanes_eq_foldl]
        rfl
      case capture =>
        intro m ha hm hlow hf
        obtain ⟨ms, hms⟩ := maskLanes_of_lowest hm hlow
        refine ⟨(s.lane m).atCue, fun x hx => Lane.mem_of_atCue hx, Lane.not_covers_of_atCue, ?_⟩
        rw [State.sampleCue_of_capture ha hms (hfires.mpr hf)]
        simp only [Capture.taken, Option.map_map]
        rfl

end Sys2Proof.Machine

/-! ## The fields of an image's bodies, and CONFIG (R168, R174, 12.6; notes/assumptions/14.md) -/

namespace Sys2Proof.Machine

section
variable (bs : List Byte) (k : Nat)

/-! ### Fields by their bytes -/

/-- A field is its first byte and the field behind it; a byte not received counts as 0. -/
theorem fieldSoFar_succ (n : Nat) :
    fieldSoFar bs k (n + 1) = (bs.getD k 0).toNat + 256 * fieldSoFar bs (k + 1) n := by
  unfold fieldSoFar
  by_cases hk : k < bs.length
  · rw [List.drop_eq_getElem_cons hk, List.take_succ_cons, leNat, List.getD_eq_getElem _ _ hk]
  · have hout : bs.length ≤ k := Nat.le_of_not_lt hk
    rw [List.drop_eq_nil_of_le hout, List.drop_eq_nil_of_le (Nat.le_succ_of_le hout),
      List.getD_eq_default _ _ hout]
    simp [leNat]

theorem fieldSoFar_one : fieldSoFar bs k 1 = (bs.getD k 0).toNat :=
  fieldSoFar_succ bs k 0

theorem fieldSoFar_two :
    fieldSoFar bs k 2 = (bs.getD k 0).toNat + 256 * (bs.getD (k + 1) 0).toNat := by
  rw [fieldSoFar_succ, fieldSoFar_one]

theorem fieldSoFar_four :
    fieldSoFar bs k 4 = fieldSoFar bs k 2 + 65536 * fieldSoFar bs (k + 2) 2 := by
  rw [fieldSoFar_succ bs k 3, fieldSoFar_succ bs (k + 1) 2, fieldSoFar_succ bs k 1, fieldSoFar_one]
  ring

theorem fieldSoFar_one_lt : fieldSoFar bs k 1 < 256 := by
  rw [fieldSoFar_one]
  exact (bs.getD k 0).isLt

theorem fieldWhole_iff (n : Nat) : fieldWhole bs k n = true ↔ k + n ≤ bs.length := decide_eq_true_iff

/-! ### The least value of a field -/

/-- The least value from `lo` on: that of the bytes received, raised by whole units. -/
theorem fieldLeast_eq (n lo : Nat) :
    fieldLeast bs k n lo =
      let v := fieldSoFar bs k n
      let unit := 256 ^ min n (bs.length - k)
      if lo ≤ v then v else v + (lo - v + (unit - 1)) / unit * unit := by
  have hpos : 0 < 256 ^ min n (bs.length - k) := Nat.pow_pos (by decide)
  rw [fieldLeast, List.length_take, List.length_drop]
  dsimp only
  split
  case isTrue hlo =>
    rw [Nat.sub_eq_zero_of_le hlo, Nat.zero_add, Nat.div_eq_of_lt (Nat.sub_lt hpos Nat.one_pos),
      Nat.mul_zero, Nat.add_zero]
  case isFalse => rw [Nat.mul_comm (256 ^ _)]

theorem fieldLeast_zero (n : Nat) : fieldLeast bs k n 0 = fieldSoFar bs k n :=
  (fieldLeast_eq bs k n 0).trans (if_pos (Nat.zero_le _))

/-- A field without a lower bound is out of its range where the bytes received show it. -/
theorem fieldOut_zero_iff (n hi : Nat) : fieldOut bs k n 0 hi = true ↔ hi < fieldSoFar bs k n := by
  rw [fieldOut, decide_eq_true_eq, fieldLeast_zero]

/-- A byte is out of its range where it has been received and lies outside. -/
theorem fieldOut_byte_iff {lo hi : Nat} (hlo : lo ≤ hi) (hhi : hi < 256) :
    fieldOut bs k 1 lo hi = true ↔
      (k + 1 ≤ bs.length ∧ fieldSoFar bs k 1 < lo) ∨ hi < fieldSoFar bs k 1 := by
  rw [fieldOut, decide_eq_true_eq, fieldLeast_eq]
  dsimp only
  have hv := fieldSoFar_one_lt bs k
  by_cases hk : k + 1 ≤ bs.length
  · rw [show min 1 (bs.length - k) = 1 by omega]
    split <;> omega
  · have hzero : fieldSoFar bs k 1 = 0 := by
      rw [fieldSoFar_one, List.getD_eq_default _ _ (by omega)]
      rfl
    rw [show min 1 (bs.length - k) = 0 by omega, hzero]
    split <;> omega

theorem fieldUneven_iff (n m : Nat) : fieldUneven bs k n m = true ↔ fieldSoFar bs k n % m ≠ 0 :=
  bne_iff_ne

end

/-! ### CONFIG (R92, R168, R174) -/

/-- R168, R92: the ranges of CONFIG and the bounds between its fields. -/
theorem configBad_iff (bs : List Byte) :
    let pitch := fieldLeast bs 16 4 256
    let width := fieldLeast bs 20 2 64
    let lines := fieldLeast bs 22 2 64
    let rate := fieldLeast bs 24 2 1
    configBad bs = true ↔
      7 < fieldSoFar bs 0 4 ∨ (bitField bs 0 0 = true ∧ fieldSoFar bs 4 4 % 65536 ≠ 0) ∨
      fieldSoFar bs 8 4 % 64 ≠ 0 ∨ fieldSoFar bs 12 4 % 64 ≠ 0 ∨ fieldSoFar bs 16 4 % 64 ≠ 0 ∨
      4096 < width ∨ pitch < 4 * width ∨ 2200 < lines ∨
      4294967296 < fieldSoFar bs 8 4 + lines * pitch ∨ 4294967296 < fieldSoFar bs 12 4 + lines * pitch ∨
      65535 < rate ∨ rate < fieldLeast bs 26 2 1 ∨ lines ≤ fieldSoFar bs 28 2 ∨
      1 < fieldSoFar bs 30 1 ∨ (bitField bs 0 1 = true ∧ 1 < fieldSoFar bs 31 1) ∨
      (bitField bs 0 2 = true ∧ 33 ≤ bs.length ∧ fieldSoFar bs 32 1 = 0) := by
  intro pitch width lines rate
  have hlines : fieldLeast bs 22 2 64 - 1 < fieldSoFar bs 28 2 ↔ lines ≤ fieldSoFar bs 28 2 := by
    have hleast : 64 ≤ fieldLeast bs 22 2 64 := (fieldLeast_spec bs 22 2 64).1
    omega
  have hstall : fieldOut bs 32 1 1 255 = true ↔ 33 ≤ bs.length ∧ fieldSoFar bs 32 1 = 0 := by
    have hv := fieldSoFar_one_lt bs 32
    rw [fieldOut_byte_iff bs 32 (by decide) (by decide)]
    omega
  have hrange : ∀ k n lo hi, fieldOut bs k n lo hi = true ↔ hi < fieldLeast bs k n lo :=
    fun _ _ _ _ => decide_eq_true_iff
  simp only [configBad, Bool.or_eq_true, Bool.and_eq_true, decide_eq_true_eq, hstall, hrange,
    fieldLeast_zero, fieldUneven_iff, or_assoc, hlines]
  exact Iff.rfl

end Sys2Proof.Machine

/-! ## STYLE records, glyph records and the header of a FONT (R118, R119, R174, 12.6) -/

namespace Sys2Proof.Machine

/-! ### STYLE (R119) -/

/-- A field of a record's bytes is that field of all the bytes. -/
theorem fieldSoFar_take (bs : List Byte) {k n m : Nat} (h : k + n ≤ m) :
    fieldSoFar (bs.take m) k n = fieldSoFar bs k n := by
  rw [fieldSoFar, List.drop_take, List.take_take, Nat.min_eq_left (by omega), fieldSoFar]

theorem wordField_take (bs : List Byte) {k m : Nat} (h : k + 4 ≤ m) :
    wordField (bs.take m) k = wordField bs k := by
  rw [wordField, fieldSoFar_take bs h, wordField]

theorem getD_take {α : Type} (l : List α) {k m : Nat} (h : k < m) (d : α) :
    (l.take m).getD k d = l.getD k d := by
  simp only [List.getD_eq_getElem?_getD, List.getElem?_take, h, if_true]

/-- R119: the ranges of a style record, and a style given twice. -/
theorem styleBad_take_iff (given : List (Nat × Style)) (bs : List Byte) :
    styleBad given (bs.take 48) = true ↔
      31 < fieldSoFar bs 0 1 ∨ (1 ≤ bs.length ∧ ∃ e ∈ given, e.1 = fieldSoFar bs 0 1) ∨
      256 < fieldSoFar bs 36 2 ∨ 3 < fieldSoFar bs 38 1 ∨ 63 < fieldSoFar bs 39 1 ∨
      1023 < fieldSoFar bs 40 2 ∨ 15 < fieldSoFar bs 43 1 ∨ 15 < fieldSoFar bs 44 1 ∨
      15 < fieldSoFar bs 45 1 ∨ 15 < fieldSoFar bs 46 1 := by
  have hrange : ∀ k n hi, k + n ≤ 48 →
      (fieldOut (bs.take 48) k n 0 hi = true ↔ hi < fieldSoFar bs k n) := fun k n hi h => by
    rw [fieldOut_zero_iff, fieldSoFar_take bs h]
  have hwhole : fieldWhole (bs.take 48) 0 1 = true ↔ 1 ≤ bs.length := by
    rw [fieldWhole_iff, List.length_take]
    omega
  simp only [styleBad, Bool.or_eq_true, Bool.and_eq_true, hrange, hwhole, List.any_eq_true,
    beq_iff_eq, fieldSoFar_take, Nat.reduceAdd, Nat.reduceLeDiff, or_assoc]

/-- 12.6: the style of a record, its fields by their places. -/
theorem styleOf_take (bs : List Byte) :
    styleOf (bs.take 48) =
      { colors := { fill := colorOfWord (wordField bs 4), text := colorOfWord (wordField bs 8)
                    up := colorOfWord (wordField bs 12), down := colorOfWord (wordField bs 16)
                    flat := colorOfWord (wordField bs 20), halt := colorOfWord (wordField bs 24) }
        flash := { flashUp := colorOfWord (wordField bs 28), flashDown := colorOfWord (wordField bs 32)
                   alpha := fieldSoFar bs 36 2, legalize := bitField bs 42 3
                   attack := fieldSoFar bs 43 1, decay := fieldSoFar bs 44 1
                   release := fieldSoFar bs 45 1, sustain := fieldSoFar bs 46 1
                   hold := if fieldSoFar bs 47 1 = 0 then 1 else fieldSoFar bs 47 1 }
        width := { font := fieldSoFar bs 38 1, pad := fieldSoFar bs 39 1
                   minWidth := fieldSoFar bs 40 2, separators := bitField bs 42 0
                   percent := bitField bs 42 1, seconds := bitField bs 42 2 } } := by
  have hhold : max 1 (fieldSoFar bs 47 1) =
      if fieldSoFar bs 47 1 = 0 then 1 else fieldSoFar bs 47 1 := by
    split <;> omega
  simp only [styleOf, bitField, fieldSoFar_take, wordField_take, getD_take, Nat.reduceAdd,
    Nat.reduceMul, Nat.reduceLeDiff, Nat.reduceLT, hhold]

/-! ### Bitmaps (R118, 12.6) -/

theorem length_nibblesOf (bs : List Byte) : (nibblesOf bs).length = 2 * bs.length := by
  induction bs with
  | nil => rfl
  | cons b bs ih =>
    rw [nibblesOf, List.flatMap_cons, List.length_append, ← nibblesOf, ih, List.length_cons,
      List.length_cons, List.length_cons, List.length_nil]
    ring

/-- 12.6: the nibbles of a byte, the first in the low half. -/
theorem nibblesOf_getD (bs : List Byte) (k : Nat) :
    ((nibblesOf bs).getD k 0).toNat =
      if k % 2 = 0 then (bs.getD (k / 2) 0).toNat % 16 else (bs.getD (k / 2) 0).toNat / 16 := by
  induction bs generalizing k with
  | nil => simp [nibblesOf]
  | cons b bs ih =>
    have hcons : nibblesOf (b :: bs) = b.extractLsb' 0 4 :: b.extractLsb' 4 4 :: nibblesOf bs := rfl
    rw [hcons]
    match k with
    | 0 => simp
    | 1 =>
      have hb := b.isLt
      simp [Nat.shiftRight_eq_div_pow]
      omega
    | k + 2 =>
      rw [show (k + 2) % 2 = k % 2 by omega, show (k + 2) / 2 = k / 2 + 1 by omega]
      exact ih k

/-- Rows of one length, laid one behind the other. -/
theorem flatMap_range_rows {α : Type} {c : Nat} (f : Nat → List α) (d : α) : ∀ h : Nat,
    (∀ r, r < h → (f r).length = c) →
      ((List.range h).flatMap f).length = h * c ∧
      ∀ r j, r < h → j < c → ((List.range h).flatMap f).getD (r * c + j) d = (f r).getD j d
  | 0, _ => by simp
  | h + 1, hrow => by
    obtain ⟨hlen, hget⟩ := flatMap_range_rows f d h fun r hr => hrow r (Nat.lt_succ_of_lt hr)
    rw [List.range_succ, List.flatMap_append, List.flatMap_singleton]
    refine ⟨by rw [List.length_append, hlen, hrow h (Nat.lt_succ_self h)]; ring, fun r j hr hj => ?_⟩
    rcases Nat.lt_succ_iff_lt_or_eq.mp hr with hlt | rfl
    · have hin : r * c + j < ((List.range h).flatMap f).length := by
        rw [hlen]
        calc r * c + j < (r + 1) * c := by rw [Nat.succ_mul]; omega
          _ ≤ h * c := Nat.mul_le_mul_right c hlt
      rw [List.getD_append _ _ _ _ hin, hget r j hlt hj]
    · rw [List.getD_append_right _ _ _ _ (by omega), hlen, Nat.add_sub_cancel_left]

/-- R118: a bitmap cut to its first columns keeps them, row by row. -/
theorem cutBitmap_spec {w h cut : Nat} {ns : List Nibble} (hcut : cut ≤ w) (hns : w * h ≤ ns.length) :
    (cutBitmap w h cut ns).length = h * cut ∧
      ∀ row col, row < h → col < cut →
        (cutBitmap w h cut ns).getD (row * cut + col) 0 = ns.getD (row * w + col) 0 := by
  have hrow : ∀ r, r < h → (((ns.drop (r * w)).take w).take cut).length = cut := fun r hr => by
    have hend : (r + 1) * w ≤ h * w := Nat.mul_le_mul_right w hr
    rw [Nat.succ_mul, Nat.mul_comm h] at hend
    rw [List.length_take, List.length_take, List.length_drop]
    omega
  obtain ⟨hlen, hget⟩ := flatMap_range_rows (fun r => ((ns.drop (r * w)).take w).take cut) 0 h hrow
  refine ⟨hlen, fun row col hr hc => (hget row col hr hc).trans ?_⟩
  simp only [List.getD_eq_getElem?_getD, List.getElem?_take, List.getElem?_drop, hc,
    Nat.lt_of_lt_of_le hc hcut, if_true]

/-! ### Glyph records (R118, R174) -/

/-- R118: the glyph of a record of which all bytes have been received. -/
theorem glyphOf_spec {height w : Nat} {bs : List Byte} (dflt adv : Nat)
    (hlen : glyphRecordLength height w ≤ bs.length) :
    let g := glyphOf height dflt adv w ((bs.take (glyphRecordLength height w)).drop 4)
    g.advance = (if adv = 255 then dflt else adv) ∧
    g.width = (if w < g.advance then w else g.advance) ∧
    g.nibbles.length = height * g.width ∧
    ∀ row col, row < height → col < g.width →
      (g.nibbles.getD (row * g.width + col) 0).toNat =
        if (row * w + col) % 2 = 0 then (bs.getD (4 + (row * w + col) / 2) 0).toNat % 16
        else (bs.getD (4 + (row * w + col) / 2) 0).toNat / 16 := by
  intro g
  have hwidth : g.width = min w g.advance := rfl
  have hns : w * height ≤
      (nibblesOf ((bs.take (glyphRecordLength height w)).drop 4)).length := by
    rw [length_nibblesOf, List.length_drop, List.length_take]
    unfold glyphRecordLength at hlen ⊢
    omega
  obtain ⟨hcount, hget⟩ := cutBitmap_spec (cut := g.width) (Nat.min_le_left _ _) hns
  refine ⟨rfl, by rw [hwidth]; split <;> omega, hcount, fun row col hr hc => ?_⟩
  have hin : row * w + col < w * height := by
    have hend : (row + 1) * w ≤ height * w := Nat.mul_le_mul_right w hr
    rw [Nat.succ_mul, Nat.mul_comm height] at hend
    omega
  have hbyte : ((bs.take (glyphRecordLength height w)).drop 4).getD ((row * w + col) / 2) 0 =
      bs.getD (4 + (row * w + col) / 2) 0 := by
    rw [List.getD_eq_getElem?_getD, List.getElem?_drop, ← List.getD_eq_getElem?_getD]
    refine getD_take bs ?_ 0
    unfold glyphRecordLength
    omega
  rw [show g.nibbles = cutBitmap w height g.width _ from rfl, hget row col hr hc, nibblesOf_getD, hbyte]

/-- R118, R174: the code of a glyph record is listed, or its advance is none. -/
abbrev GlyphBad (seen : List Nat) (bs : List Byte) : Prop :=
  (1 ≤ bs.length ∧ fieldSoFar bs 0 1 ∈ seen) ∨
    (2 ≤ bs.length ∧ 64 < fieldSoFar bs 1 1 ∧ fieldSoFar bs 1 1 ≠ 255)

/-- R118, R174: a glyph record of this length leaves nothing that `n` records to come can fill. -/
abbrev GlyphUnfit (height n left len : Nat) : Prop := left < len ∨ recordsFit height n (left - len) = false

/-- R118, R174: the next glyph record, by what has been received of it. -/
theorem scanGlyphs_succ (height dflt n left : Nat) (seen : List Nat) (given : Store Glyph)
    (bs : List Byte) :
    let len := glyphRecordLength height (fieldSoFar bs 2 1)
    let g := glyphOf height dflt (fieldSoFar bs 1 1) (fieldSoFar bs 2 1) ((bs.take len).drop 4)
    scanGlyphs height dflt (n + 1) left seen given bs =
      if GlyphBad seen bs then .fail .format
      else if bs.length < 3 then .more
      else if GlyphUnfit height n left len then .fail .format
      else if bs.length < len then .more
      else scanGlyphs height dflt n (left - len) (fieldSoFar bs 0 1 :: seen)
        (if g.advance = 0 then given else Store.put Glyph.undefined given (fieldSoFar bs 0 1) g)
        (bs.drop len) := by
  intro len g
  have hcode : (fieldWhole bs 0 1 && seen.contains (fieldSoFar bs 0 1)) = true ↔
      1 ≤ bs.length ∧ fieldSoFar bs 0 1 ∈ seen := by
    rw [Bool.and_eq_true, fieldWhole_iff, List.contains_iff_mem]
  have hadvance : (fieldWhole bs 1 1 && decide (64 < fieldSoFar bs 1 1) && fieldSoFar bs 1 1 != 255) =
      true ↔ 2 ≤ bs.length ∧ 64 < fieldSoFar bs 1 1 ∧ fieldSoFar bs 1 1 ≠ 255 := by
    rw [Bool.and_eq_true, Bool.and_eq_true, fieldWhole_iff, decide_eq_true_eq, bne_iff_ne, and_assoc]
  have hwidth : (!fieldWhole bs 2 1) = true ↔ bs.length < 3 := by
    rw [Bool.not_eq_true', ← Bool.not_eq_true, fieldWhole_iff]
    omega
  rw [scanGlyphs]
  exact (if_congr hcode rfl (if_congr hadvance rfl (if_congr hwidth rfl rfl))).trans
    (ite_or ..).symm

/-! ### The header of a FONT (R118, R174) -/

/-- R118, R174: some count of glyphs that agrees with the bytes received fills the body. -/
theorem fontFits_iff (len : Nat) (bs : List Byte) :
    fontFits len bs = true ↔ ∃ n, n ≤ 256 ∧ recordsFit (fieldSoFar bs 0 1) n (len - 4) = true ∧
      (3 ≤ bs.length → n % 256 = fieldSoFar bs 2 1) ∧
      (4 ≤ bs.length → n / 256 = fieldSoFar bs 3 1) := by
  rw [fontFits, fieldMay_iff bs 2 256 _ fun x hx => by
    rw [Bool.and_eq_true, decide_eq_true_eq] at hx; exact hx.1]
  simp only [Bool.and_eq_true, decide_eq_true_eq, ← fieldSoFar_one, and_assoc]
  constructor
  · rintro ⟨n, _, hmax, hrest⟩
    exact ⟨n, hmax, hrest⟩
  · rintro ⟨n, hmax, hrest⟩
    exact ⟨n, by omega, hmax, hrest⟩

/-- R118, R174: the ranges of a font's height and default advance, and a count that fits. -/
theorem fontBad_iff (len : Nat) (bs : List Byte) :
    (fieldOut bs 0 1 8 64 || fieldOut bs 1 1 1 64 || (fieldWhole bs 0 1 && !fontFits len bs)) = true ↔
      (1 ≤ bs.length ∧ fieldSoFar bs 0 1 < 8) ∨ 64 < fieldSoFar bs 0 1 ∨
      (2 ≤ bs.length ∧ fieldSoFar bs 1 1 = 0) ∨ 64 < fieldSoFar bs 1 1 ∨
      (1 ≤ bs.length ∧ ¬ fontFits len bs = true) := by
  rw [Bool.or_eq_true, Bool.or_eq_true, Bool.and_eq_true,
    fieldOut_byte_iff bs 0 (by decide) (by decide), fieldOut_byte_iff bs 1 (by decide) (by decide),
    fieldWhole_iff, Bool.not_eq_true', ← Bool.not_eq_true, Nat.lt_one_iff, or_assoc, or_assoc, or_assoc]

/-- What a scan of a part makes of what it is a part of. -/
def Scan.map {α β : Type} (f : α → β) : Scan α → Scan β
  | .fail r => .fail r
  | .more => .more
  | .done a => .done (f a)

/-- R118, R174: a FONT body by what has been received of it. -/
theorem scanFont_eq (len : Nat) (bs : List Byte) :
    scanFont len bs =
      if (fieldOut bs 0 1 8 64 || fieldOut bs 1 1 1 64 ||
        (fieldWhole bs 0 1 && !fontFits len bs)) = true then .fail .format
      else if bs.length < 4 then .more
      else (scanGlyphs (fieldSoFar bs 0 1) (fieldSoFar bs 1 1) (fieldSoFar bs 2 2) (len - 4) [] []
        (bs.drop 4)).map fun gs =>
          { height := fieldSoFar bs 0 1, defaultAdvance := fieldSoFar bs 1 1
            glyphs := withZeroGlyph (fieldSoFar bs 0 1) gs } := by
  unfold scanFont
  refine if_congr Iff.rfl rfl (if_congr Iff.rfl rfl ?_)
  cases scanGlyphs (fieldSoFar bs 0 1) (fieldSoFar bs 1 1) (fieldSoFar bs 2 2) (len - 4) [] []
    (bs.drop 4) <;> rfl

end Sys2Proof.Machine

/-! ## The bodies of an image's sections (R92, R118, R119, R168, R174, 12.6) -/

namespace Sys2Proof.Machine

/-- Settles O53: each body by its fields, the bytes received of them, and the checks in their order. -/
theorem imageBodies : Obligations.ImageBodies := by
  intro bs has u8 u16 u32 word flag least pitch width lines rate
  have h1 : ∀ k, fieldSoFar bs k 1 = u8 k := fieldSoFar_one bs
  have h2 : ∀ k, fieldSoFar bs k 2 = u16 k := fieldSoFar_two bs
  have h4 : ∀ k, fieldSoFar bs k 4 = u32 k := fun k => by rw [fieldSoFar_four, h2, h2]
  have hword : ∀ k, wordField bs k = word k := fun k => by rw [wordField, h4]
  have hleast : ∀ k n lo, fieldLeast bs k n lo = least (fieldSoFar bs k n) k n lo := fieldLeast_eq bs
  refine ⟨fun _ => ?config, fun n given => ⟨rfl, ?style⟩, ?fonts⟩
  case config =>
    have hbad := configBad_iff bs
    simp only [hleast, h1, h2, h4] at hbad
    refine if_congr hbad rfl (if_congr Iff.rfl rfl (congrArg Scan.done ?_))
    simp only [configOf, h1, h2, h4, hword]
    rfl
  case style =>
    have hbad := styleBad_take_iff given bs
    have hstyle := styleOf_take bs
    simp only [h1, h2] at hbad
    simp only [h1, h2, hword] at hstyle
    refine if_congr hbad rfl (if_congr Iff.rfl rfl ?_)
    rw [fieldSoFar_take bs (by decide), h1, hstyle]
    rfl
  case fonts =>
    intro fill
    have hfill : ∀ height n left, recordsFit height n left = true ↔ fill height n left := recordsFit_iff
    refine ⟨?font, fun height dflt n left seen given => ⟨rfl, ?glyph⟩⟩
    case font =>
      intro len fits bad
      have hfits : fontFits len bs = true ↔ fits := by
        simp only [fontFits_iff, h1, hfill]
        rfl
      have hbad := fontBad_iff len bs
      rw [hfits] at hbad
      simp only [h1] at hbad
      have hscan := scanFont_eq len bs
      refine ⟨fun h => ?_, fun h hshort => ?_, fun h hlong => ?_⟩
      · rw [hscan, if_pos (hbad.mpr h)]
      · rw [hscan, if_neg (mt hbad.mp h), if_pos hshort]
      · rw [hscan, if_neg (mt hbad.mp h), if_neg (Nat.not_lt.mpr hlong), h1, h1, h2]
        cases scanGlyphs (u8 0) (u8 1) (u16 2) (len - 4) [] [] (bs.drop 4) <;> rfl
    case glyph =>
      intro scan bad len unfit
      have hscan := scanGlyphs_succ height dflt n left seen given bs
      have hbad : GlyphBad seen bs ↔ bad := by simp only [GlyphBad, h1]; rfl
      have hunfit : GlyphUnfit height n left len ↔ unfit := by
        rw [GlyphUnfit, ← Bool.not_eq_true, hfill]
      have hspec := glyphOf_spec (height := height) (w := fieldSoFar bs 2 1) (bs := bs) dflt
        (fieldSoFar bs 1 1)
      simp only [h1] at hscan hspec
      have hheader : ¬ bad → 3 ≤ bs.length → scan = _ := fun h hwidth =>
        hscan.trans ((if_neg (mt hbad.mp h)).trans (if_neg (Nat.not_lt.mpr hwidth)))
      have hfits : ¬ bad → 3 ≤ bs.length → ¬ unfit → scan = _ := fun h hwidth hu =>
        (hheader h hwidth).trans (if_neg (mt hunfit.mp hu))
      refine ⟨fun h => hscan.trans (if_pos (hbad.mpr h)),
        fun h hshort => hscan.trans ((if_neg (mt hbad.mp h)).trans (if_pos hshort)),
        fun h hwidth hu => (hheader h hwidth).trans (if_pos (hunfit.mpr hu)),
        fun h hwidth hu hshort => (hfits h hwidth hu).trans (if_pos hshort),
        fun h hwidth hu hwhole => ?_⟩
      obtain ⟨hadvance, hcut, hcount, hnibbles⟩ := hspec hwhole
      exact ⟨_, hadvance, hcut, hcount, hnibbles,
        (hfits h hwidth hu).trans (if_neg (Nat.not_lt.mpr hwhole))⟩

end Sys2Proof.Machine

/-! ## The item and text commands (R110, R111, R115, R116) -/

namespace Sys2Proof.Machine

/-! ### Arguments that are refused or read -/

theorem below_eq {bound top : Nat} (h : bound = top + 1) (n : Nat) :
    below n bound = if top < n then none else some n := by
  subst h
  unfold below
  split
  · rw [if_neg (by omega)]
  · rw [if_pos (by omega)]

/-- R151: a command whose arguments are refused on a condition. -/
theorem orBadArg_ite {α : Type} (p : Prop) [Decidable p] (a : α) (s : State)
    (f : α → State × ResultCode) :
    orBadArg (if p then none else some a) s f = if p then (s, .badArg) else f a := by
  split <;> rfl

theorem bind_ite_none {α β : Type} (p : Prop) [Decidable p] (a : α) (f : α → Option β) :
    (if p then none else some a).bind f = if p then none else f a := by
  split <;> rfl

theorem map_ite_none {α β : Type} (p : Prop) [Decidable p] (a : α) (f : α → β) :
    (if p then none else some a).map f = if p then none else some (f a) := by
  split <;> rfl

/-! ### The record of ITEM_DEFINE (R110) -/

/-- R110: the kinds are three, and the source of a TEXT or a QUOTE names a segment or a slot. -/
theorem itemSource?_eq (kind src : Nat) :
    itemSource? kind src =
      if 2 < kind ∨ (kind = 0 ∧ 4095 < src) ∨ (kind = 1 ∧ 2047 < src) then none
      else some (if kind = 0 then .text src else if kind = 1 then .quote src else .clock) := by
  match kind with
  | 0 => 
    simp only [itemSource?, below_eq (rfl : Config.segmentCount = 4095 + 1)]
    by_cases h : 4095 < src <;> simp [h]
  | 1 =>
    simp only [itemSource?, below_eq (rfl : Config.quoteCount = 2047 + 1)]
    by_cases h : 2047 < src <;> simp [h]
  | 2 => rfl
  | k + 3 => exact (if_pos (.inl (by omega))).symm

/-- R110, R172: 0xFF gives no override, and any other byte a style. -/
theorem override?_eq (n : Nat) :
    override? n = if 31 < n ∧ n ≠ 255 then none else some (if n = 255 then none else some n) := by
  unfold override?
  rw [below_eq (rfl : Config.styleCount = 31 + 1)]
  by_cases h255 : n = 255
  · simp [h255]
  · by_cases h : 31 < n <;> simp [h, h255]

theorem cueOut?_eq (n : Nat) :
    cueOut? n =
      if 6 < n then none
      else some ([CueOut.none, .set0, .clear0, .toggle0, .set1, .clear1, .toggle1].getD n .none) := by
  match n with
  | 0 | 1 | 2 | 3 | 4 | 5 | 6 => rfl
  | k + 7 => exact (if_pos (by omega)).symm

/-- R110: a field of an ITEM_DEFINE is out of its range. -/
abbrev Command.ItemBad (c : Command) : Prop :=
  2 < bits c.w0 16 8 ∨ (31 < bits c.w1 16 8 ∧ bits c.w1 16 8 ≠ 255) ∨ 6 < bits c.w0 24 8 ∨
    (bits c.w0 16 8 = 0 ∧ 4095 < bits c.w1 0 16) ∨ (bits c.w0 16 8 = 1 ∧ 2047 < bits c.w1 0 16)

/-- R110: the record that the fields of an ITEM_DEFINE give. -/
abbrev Command.itemFields (c : Command) : Item :=
  { defined := true
    source :=
      if bits c.w0 16 8 = 0 then .text (bits c.w1 0 16)
      else if bits c.w0 16 8 = 1 then .quote (bits c.w1 0 16) else .clock
    override := if bits c.w1 16 8 = 255 then none else some (bits c.w1 16 8)
    repeats := c.w1.getLsbD 24, marker := c.w1.getLsbD 25
    cueOut :=
      [CueOut.none, .set0, .clear0, .toggle0, .set1, .clear1, .toggle1].getD (bits c.w0 24 8) .none
    tag := c.w2.extractLsb' 0 16 }

/-- R110, R172: an ITEM_DEFINE carries no record where a field is out of its range. -/
theorem Command.itemRecord_eq (c : Command) :
    c.itemRecord = if c.ItemBad then none else some c.itemFields := by
  rw [Command.itemRecord, itemSource?_eq, override?_eq, cueOut?_eq, bind_ite_none, bind_ite_none,
    map_ite_none, ← ite_or, ← ite_or]
  exact if_congr (by unfold Command.ItemBad; tauto) rfl rfl

/-! ### Items (R110 to R112) -/

/-- R112: the model's test of a placed item. -/
theorem State.itemPlaced_iff (s : State) (i : Nat) :
    s.itemPlaced i = true ↔ ∃ m : Fin 4, ∃ x ∈ (s.lane m).entries, x.1 = i := by
  simp only [State.itemPlaced, List.any_eq_true, Four.mem_toList, beq_iff_eq]
  exact ⟨fun ⟨_, ⟨m, e⟩, h⟩ => ⟨m, by rwa [State.lane, e]⟩, fun ⟨m, h⟩ => ⟨_, ⟨m, rfl⟩, h⟩⟩

/-- R110: ITEM_DEFINE. -/
theorem itemDefineEffect_eq (c : Command) (s : State) :
    itemDefineEffect c s =
      if 511 < bits c.w0 0 16 ∨ c.ItemBad then (s, .badArg)
      else if ∃ m : Fin 4, ∃ x ∈ (s.lane m).entries, x.1 = bits c.w0 0 16 then (s, .inUse)
      else (s.setItem (bits c.w0 0 16) c.itemFields, .ok) := by
  rw [itemDefineEffect, Command.itemIndex_eq, Command.itemRecord_eq, orBadArg_ite, orBadArg_ite,
    ← ite_or]
  exact if_congr Iff.rfl rfl (if_congr (s.itemPlaced_iff _) rfl rfl)

/-- R111: ITEM_DROP. -/
theorem itemDropEffect_eq (c : Command) (s : State) :
    itemDropEffect c s =
      if 511 < bits c.w0 0 16 then (s, .badArg)
      else if ∃ m : Fin 4, bits c.w0 0 16 ∈ (s.lane m).ring then (s, .inUse)
      else if (s.item (bits c.w0 0 16)).defined = true then
        (s.setItem (bits c.w0 0 16) Item.undefined, .ok)
      else (s, .ok) := by
  rw [itemDropEffect, Command.itemIndex_eq, orBadArg_ite]
  exact if_congr Iff.rfl rfl (if_congr (s.itemInRing_iff _) rfl rfl)

/-! ### Segments (R113 to R116) -/

/-- R116: the model's test of a segment in use. -/
theorem State.segmentInUse_iff (s : State) (k : Nat) :
    s.segmentInUse k = true ↔ ∃ (m : Fin 4) (x : Nat × Placement) (head : Nat),
      x ∈ (s.lane m).entries ∧ (s.item x.1).source = .text head ∧ k ∈ s.textSegments head := by
  simp only [State.segmentInUse, List.any_eq_true, Four.mem_toList]
  constructor
  · rintro ⟨_, ⟨m, rfl⟩, x, hx, hreach⟩
    cases hsrc : (s.item x.1).source with
    | text head =>
      rw [hsrc] at hreach
      exact ⟨m, x, head, hx, hsrc, List.contains_iff_mem.mp hreach⟩
    | quote n => rw [hsrc] at hreach; cases hreach
    | clock => rw [hsrc] at hreach; cases hreach
  · rintro ⟨m, x, head, hx, hsrc, hk⟩
    refine ⟨s.lane m, ⟨m, rfl⟩, x, hx, ?_⟩
    rw [hsrc]
    exact List.contains_iff_mem.mpr hk

/-- R115, R172: 0xFFFF gives no next link, and any other number a segment. -/
theorem nextLink?_eq (n : Nat) :
    nextLink? n = if 4095 < n ∧ n ≠ 65535 then none else some (if n = 65535 then none else some n) := by
  unfold nextLink?
  rw [below_eq (rfl : Config.segmentCount = 4095 + 1)]
  by_cases hnone : n = 65535
  · simp [hnone]
  · by_cases h : 4095 < n <;> simp [h, hnone]

/-- R115: a field of a TEXT_SEGMENT is out of its range. -/
abbrev Command.SegmentBad (c : Command) : Prop :=
  4095 < bits c.w0 0 16 ∨ 1 < bits c.w0 16 8 ∨ (4095 < bits c.w1 0 16 ∧ bits c.w1 0 16 ≠ 65535)

/-- R115: the arguments that the fields of a TEXT_SEGMENT give. -/
abbrev Command.segmentFields (c : Command) : SegmentArgs :=
  { index := bits c.w0 0 16, upper := bits c.w0 16 8 == 1, count := min 24 (bits c.w0 24 8)
    next := if bits c.w1 0 16 = 65535 then none else some (bits c.w1 0 16)
    codes := wordBytes c.w2 ++ wordBytes c.w3 ++ wordBytes c.w4 }

/-- R115, R172: a TEXT_SEGMENT carries no arguments where a field is out of its range. -/
theorem Command.segmentArgs_eq (c : Command) :
    c.segmentArgs = if c.SegmentBad then none else some c.segmentFields := by
  rw [Command.segmentArgs, below_eq (rfl : Config.segmentCount = 4095 + 1),
    below_eq (rfl : 2 = 1 + 1), nextLink?_eq, bind_ite_none, bind_ite_none, map_ite_none, ← ite_or,
    ← ite_or]
  exact if_congr or_assoc rfl rfl

/-- R115: half 0 or half 1 of a segment's codes is replaced. -/
theorem Segment.write_segmentFields (g : Segment) {c : Command} (h : ¬ c.SegmentBad) :
    g.write c.segmentFields =
      { count := if 24 < bits c.w0 24 8 then 24 else bits c.w0 24 8
        next := if bits c.w1 0 16 = 65535 then none else some (bits c.w1 0 16)
        codes :=
          if bits c.w0 16 8 = 0 then wordBytes c.w2 ++ wordBytes c.w3 ++ wordBytes c.w4 ++ g.codes.drop 12
          else g.codes.take 12 ++ (wordBytes c.w2 ++ wordBytes c.w3 ++ wordBytes c.w4) } := by
  have hcount : min 24 (bits c.w0 24 8) = if 24 < bits c.w0 24 8 then 24 else bits c.w0 24 8 := by
    split <;> omega
  obtain hhalf | hhalf : bits c.w0 16 8 = 0 ∨ bits c.w0 16 8 = 1 := by
    unfold Command.SegmentBad at h
    omega
  · simp [Segment.write, hcount, hhalf]
  · simp [Segment.write, hcount, hhalf]

/-- R115, R116: TEXT_SEGMENT. -/
theorem textSegmentEffect_eq (c : Command) (s : State) :
    textSegmentEffect c s =
      if c.SegmentBad then (s, .badArg)
      else if s.segmentInUse (bits c.w0 0 16) = true then (s, .inUse)
      else
        ({ s with
           segments := Store.put Segment.empty s.segments (bits c.w0 0 16)
             ((s.segment (bits c.w0 0 16)).write c.segmentFields) }, .ok) := by
  rw [textSegmentEffect, Command.segmentArgs_eq, orBadArg_ite]

/-! ### The commands with their completion -/

/-- R149: the completion of a command whose effect depends on a condition. -/
theorem complete_ite (p : Prop) [Decidable p] (a b : State × ResultCode) (e : IntakeEntry) :
    (if p then a else b).1.complete e (if p then a else b).2 =
      if p then a.1.complete e a.2 else b.1.complete e b.2 := by
  split <;> rfl

/-- Settles O10: the checks of ITEM_DEFINE and of TEXT_SEGMENT, and what an accepted one writes. -/
theorem itemAndTextCommands : Obligations.ItemAndTextCommands := by
  refine ⟨fun s e h => ?item, fun s e h => ?segment⟩
  case item =>
    intro c i kind cue src ov
    refine congrArg Host.Outcome.next ((State.run_of_executes h _).trans ?_)
    rw [itemDefineEffect_eq, complete_ite, complete_ite]
    rfl
  case segment =>
    intro c k half count nx old codes bad used
    have hrun : exec .textSegment s = .next _ := congrArg Host.Outcome.next (State.run_of_executes h _)
    have hused : s.quiet.segmentInUse k = true ↔ used := s.segmentInUse_iff k
    rw [textSegmentEffect_eq, complete_ite, complete_ite] at hrun
    refine ⟨fun hbad => ?_, fun hgood hu => ?_, fun hgood hu => ?_⟩
    · rw [hrun, if_pos hbad]
    · rw [hrun, if_neg hgood, if_pos (hused.mpr hu)]
    · rw [hrun, if_neg hgood, if_neg (mt hused.mp hu), Segment.write_segmentFields _ hgood]
      rfl

/-- Settles O11: ITEM_DROP by whether the item stands in a ring and is defined. -/
theorem itemDropCommand : Obligations.ItemDropCommand := by
  intro s e h i
  refine congrArg Host.Outcome.next ((State.run_of_executes h _).trans ?_)
  rw [itemDropEffect_eq, complete_ite, complete_ite, complete_ite]
  rfl

end Sys2Proof.Machine

/-! ## The style table: its commands, and the transfer (R120 to R122) -/

namespace Sys2Proof.Machine

/-! ### STYLE_FORM's fields (R121) -/

/-- R120, R121: the style of a style command is one of the 32. -/
theorem Command.styleIndex_eq (c : Command) :
    c.styleIndex = if 31 < bits c.close 8 8 then none else some (bits c.close 8 8) :=
  below_eq (rfl : Config.styleCount = 31 + 1) _

/-- R121: an appearance field of a STYLE_FORM is out of its range. -/
abbrev Command.FlashBad (c : Command) : Prop :=
  256 < bits c.w2 0 16 ∨ 15 < bits c.w4 0 8 ∨ 15 < bits c.w4 8 8 ∨ 15 < bits c.w4 16 8 ∨
    15 < bits c.w4 24 8

/-- R121: the appearance fields that a STYLE_FORM gives. -/
abbrev Command.flashGiven (c : Command) : FlashFields :=
  { flashUp := colorOfWord c.w0, flashDown := colorOfWord c.w1, alpha := bits c.w2 0 16
    legalize := c.w3.getLsbD 19, attack := bits c.w4 0 8, decay := bits c.w4 8 8
    release := bits c.w4 16 8, sustain := bits c.w4 24 8
    hold := if bits c.w5 0 8 = 0 then 1 else bits c.w5 0 8 }

theorem Command.flashFields_eq (c : Command) :
    c.flashFields = if c.FlashBad then none else some c.flashGiven := by
  have hhold : max 1 (bits c.w5 0 8) = if bits c.w5 0 8 = 0 then 1 else bits c.w5 0 8 := by
    split <;> omega
  rw [Command.flashFields, hhold, ← ite_not]
  exact if_congr (by unfold Command.FlashBad; omega) rfl rfl

/-- R121: a width field of a STYLE_FORM is out of its range. -/
abbrev Command.WidthBad (c : Command) : Prop :=
  3 < bits c.w2 16 8 ∨ 63 < bits c.w2 24 8 ∨ 1023 < bits c.w3 0 16

/-- R121: the width fields that a STYLE_FORM gives. -/
abbrev Command.widthGiven (c : Command) : WidthFields :=
  { font := bits c.w2 16 8, pad := bits c.w2 24 8, minWidth := bits c.w3 0 16
    separators := c.w3.getLsbD 16, percent := c.w3.getLsbD 17, seconds := c.w3.getLsbD 18 }

theorem Command.widthFields_eq (c : Command) :
    c.widthFields = if c.WidthBad then none else some c.widthGiven := by
  rw [Command.widthFields, ← ite_not]
  exact if_congr (by unfold Command.WidthBad; omega) rfl rfl

/-! ### The commands -/

/-- R121: a style in use is the style of a placed entry, or the lane style of a lane with one. -/
abbrev State.StyleUsed (s : State) (k : Nat) : Prop :=
  ∃ m : Fin 4, (∃ p ∈ (s.lane m).placed, p.style = k) ∨
    ((s.lane m).form.style = k ∧ (s.lane m).placed ≠ [])

theorem State.styleInUse_iff (s : State) (k : Nat) : s.styleInUse k = true ↔ s.StyleUsed k := by
  simp only [State.styleInUse, List.any_eq_true, Four.mem_toList, Bool.or_eq_true, Bool.and_eq_true,
    beq_iff_eq, Bool.not_eq_true', List.isEmpty_eq_false_iff]
  exact ⟨fun ⟨_, ⟨m, e⟩, h⟩ => ⟨m, by rwa [State.lane, e]⟩, fun ⟨m, h⟩ => ⟨_, ⟨m, rfl⟩, h⟩⟩

/-- R120: STYLE_COLORS. -/
theorem styleColorsEffect_eq (c : Command) (s : State) :
    styleColorsEffect c s =
      if 31 < bits c.close 8 8 then (s, .badArg)
      else
        (s.setPendingStyle (bits c.close 8 8)
          { s.pendingStyle (bits c.close 8 8) with colors := c.sixColors }, .ok) := by
  rw [styleColorsEffect, Command.styleIndex_eq, orBadArg_ite]

/-- R121: STYLE_FORM. -/
theorem styleFormEffect_eq (c : Command) (s : State) :
    styleFormEffect c s =
      if (31 < bits c.close 8 8 ∨ c.FlashBad) ∨ c.WidthBad then (s, .badArg)
      else if s.StyleUsed (bits c.close 8 8) ∧ c.widthGiven ≠ (s.style (bits c.close 8 8)).width then
        (s, .inUse)
      else
        (s.setPendingStyle (bits c.close 8 8)
          { s.pendingStyle (bits c.close 8 8) with flash := c.flashGiven, width := c.widthGiven },
          .ok) := by
  rw [styleFormEffect, Command.styleIndex_eq, Command.flashFields_eq, Command.widthFields_eq,
    orBadArg_ite, orBadArg_ite, orBadArg_ite, ← ite_or, ← ite_or]
  exact if_congr Iff.rfl rfl (if_congr (and_congr_left' (s.styleInUse_iff _)) rfl rfl)

/-! ### The transfer (R122) -/

/-- R122: a style transferred twice is as it is after the first time. -/
theorem Style.transferred_transferred (cur pend : Style) (inUse : Bool) :
    (cur.transferred pend inUse).transferred pend inUse = cur.transferred pend inUse := by
  cases inUse <;> rfl

/-- R122: the current copies after the transfer of some of the styles. -/
theorem State.style_foldl_transferStyle : ∀ (ks : List Nat) (s : State),
    Store.wf Style.builtIn s.styles.cur = true → ∀ j,
      (ks.foldl State.transferStyle s).style j =
        if j ∈ ks then (s.style j).transferred (s.pendingStyle j) (s.styleInUse j) else s.style j
  | [], _, _, _ => rfl
  | k :: ks, s, hwf, j => by
    have hone : (s.transferStyle k).style j =
        if j = k then (s.style k).transferred (s.pendingStyle k) (s.styleInUse k) else s.style j :=
      Store.get_put hwf j
    have hpend : (s.transferStyle k).pendingStyle j = s.pendingStyle j := rfl
    have hused : (s.transferStyle k).styleInUse j = s.styleInUse j := rfl
    rw [List.foldl_cons, State.style_foldl_transferStyle ks _ (Store.put_wf hwf), hone, hpend, hused]
    by_cases hjk : j = k
    · subst hjk
      simp only [if_true, List.mem_cons, true_or, Style.transferred_transferred, ite_self]
    · simp only [hjk, if_false, List.mem_cons, false_or]

/-- R122: each style after the transfer. -/
theorem State.style_transferStyles {s : State} (h : Store.wf Style.builtIn s.styles.cur = true) {k : Nat}
    (hk : k < 32) :
    s.transferStyles.style k = (s.style k).transferred (s.pendingStyle k) (s.styleInUse k) :=
  (State.style_foldl_transferStyle _ s h k).trans (if_pos (List.mem_range.mpr hk))

/-- Settles O12: the two commands on the pending copy, and the transfer style by style. -/
theorem styleTableCommands : Obligations.StyleTableCommands := by
  refine ⟨⟨fun s e h => ?colors, fun s e h => ?form⟩, fun s hwf => ?transfer⟩
  case colors =>
    intro c k
    refine congrArg Host.Outcome.next ((State.run_of_executes h _).trans ?_)
    rw [styleColorsEffect_eq, complete_ite]
    rfl
  case form =>
    intro c k w fl
    refine congrArg Host.Outcome.next ((State.run_of_executes h _).trans ?_)
    rw [styleFormEffect_eq, complete_ite, complete_ite]
    exact if_congr (by unfold Command.FlashBad Command.WidthBad; tauto) rfl (if_congr Iff.rfl rfl rfl)
  case transfer =>
    intro used
    refine ⟨_, rfl, s.transferStyles_eq, fun k hk => ?_⟩
    rw [State.style_transferStyles hwf hk]
    have hused : s.styleInUse k = true ↔ used k := s.styleInUse_iff k
    refine ⟨rfl, rfl, fun h => if_pos (hused.mpr h), fun h => if_neg (mt hused.mp h)⟩

end Sys2Proof.Machine

/-! ## The bytes of the image, and the load that succeeds (R119, R149, R164, R168, R169) -/

namespace Sys2Proof.Machine

/-! ### What a load installs (R119, R166, R169) -/

/-- R119: each style of a STYLE section, the last record of its number; built-in where none has it. -/
theorem get_styleStore (ss : List (Nat × Style)) (k : Nat) :
    Store.get Style.builtIn (styleStore ss) k =
      ((ss.reverse.find? fun e => e.1 == k).map Prod.snd).getD Style.builtIn := by
  induction ss using List.reverseRecOn with
  | nil => rfl
  | append_singleton ss e ih =>
    have hwf : Store.wf Style.builtIn (styleStore ss) = true :=
      List.foldlRecOn (motive := fun m => Store.wf Style.builtIn m = true) ss _ rfl
        fun _ hm _ _ => Store.put_wf hm
    have hput : styleStore (ss ++ [e]) = Store.put Style.builtIn (styleStore ss) e.1 e.2 := by
      rw [styleStore, List.foldl_append]
      rfl
    rw [hput, Store.get_put hwf, ih, List.reverse_append, List.reverse_singleton, List.singleton_append,
      List.find?_cons]
    by_cases hk : k = e.1
    · rw [if_pos hk, beq_iff_eq.mpr hk.symm]
      rfl
    · rw [if_neg hk, beq_eq_false_iff_ne.mpr (Ne.symm hk)]

/-- R166: the anchor by the number of the straps. -/
theorem strapAnchor_eq (t : Straps) :
    strapAnchor t = BitVec.ofNat 32 (0x40000000 + t.anchorSel.toNat * 0x01000000) := by
  rw [strapAnchor, BitVec.ofNat_add, BitVec.ofNat_mul, BitVec.ofNat_toNat]
  rfl

/-! ### The end of a load (R149, R164, R169) -/

/-- R150: with no RELOAD under way the end of a load completes no command. -/
theorem State.completeReload_of_none {s : State} (h : s.intake.reload = none) (r : ResultCode) :
    s.completeReload r = s := by
  simp only [State.completeReload, h]

/-- R149, R150: a RELOAD that waits at the head of the queue completes as every command does. -/
theorem State.completeReload_of_waiting {s : State} {e : IntakeEntry} {rest : List IntakeEntry}
    (h : s.intake.reload ≠ none) (hq : s.intake.queue = e :: rest) (r : ResultCode) :
    s.completeReload r = ({ s with intake := { s.intake with reload := none } }).complete e r := by
  obtain ⟨stage, hstage⟩ := Option.ne_none_iff_exists'.mp h
  simp only [State.completeReload, State.complete, hstage, hq]
  rfl

/-- R164, R169: a load that succeeds, before a waiting RELOAD is answered. -/
def State.loaded (s : State) (i : Image) (c : ImageConfig) : State :=
  State.snapshot
    (State.raise
      { s.install i c with
        device := .active
        loader := { status := .done, reason := none, bus := .idle, staging := [] } } .loadDone)

theorem State.loadDone_eq (s : State) (i : Image) (c : ImageConfig) :
    s.loadDone i c = (s.loaded i c).completeReload .ok := rfl

/-- R167: a loader that reads holds the bus, which it stops and releases. -/
theorem State.endBus_of_reading {s : State} (h : s.loader.bus = .reading) :
    s.endBus = { s with out := s.out ++ [.i2cStop] ++ [.i2cRelease] } := by
  simp only [State.endBus, h]
  rfl

/-! ### The byte received (R168) -/

theorem BusPhase.holds_iff (b : BusPhase) : b.holds = true ↔ b = .addressing ∨ b = .reading := by
  cases b <;> decide

/-- R168: the state with a byte read into the staging copy. -/
def State.staged (s : State) (b : Byte) (straps : Straps) : State :=
  { s with
    out := [], pins := { s.pins with straps := straps }
    loader := { s.loader with bus := .reading, staging := s.loader.staging ++ [b] } }

theorem exec_imageByteReceived {s : State} (b : Byte) (straps : Straps)
    (h : s.loader.bus = .addressing ∨ s.loader.bus = .reading) :
    exec (.imageByteReceived b straps) s = .next (s.staged b straps).afterByte :=
  congrArg Host.Outcome.next (if_pos ((BusPhase.holds_iff _).mpr h))

theorem State.afterByte_of_more {s : State} (h : scanImage s.loader.staging = .more) :
    s.afterByte = s := by
  simp only [State.afterByte, h]

theorem State.afterByte_of_done {s : State} {i : Image} {c : ImageConfig}
    (h : scanImage s.loader.staging = .done i) (hc : i.config = some c) :
    s.afterByte = (s.endBus.loaded i c).completeReload .ok := by
  simp only [State.afterByte, h, hc, State.loadDone_eq]

/-- R164, R169: the state that a sound image leaves, before a waiting RELOAD is answered. -/
def State.imageLoaded (s : State) (b : Byte) (straps : Straps) (i : Image) (c : ImageConfig) : State :=
  State.loaded { s.staged b straps with out := [.i2cStop, .i2cRelease] } i c

theorem exec_imageByteReceived_of_done {s : State} {b : Byte} {straps : Straps} {i : Image}
    {c : ImageConfig} (hbus : s.loader.bus = .addressing ∨ s.loader.bus = .reading)
    (hdone : scanImage (s.loader.staging ++ [b]) = .done i) (hc : i.config = some c) :
    exec (.imageByteReceived b straps) s =
      .next ((s.imageLoaded b straps i c).completeReload .ok) := by
  rw [exec_imageByteReceived b straps hbus, State.afterByte_of_done (s := s.staged b straps) hdone hc,
    State.endBus_of_reading rfl]
  rfl

/-- R166, R169: what the image leaves open is given by the straps, or is the default. -/
theorem State.imageLoaded_conf (s : State) (b : Byte) (straps : Straps) (i : Image) (c : ImageConfig) :
    (s.imageLoaded b straps i c).conf =
      { anchor :=
          c.anchor.getD (BitVec.ofNat 32 (0x40000000 + straps.anchorSel.toNat * 0x01000000))
        flow := c.flow.getD (if straps.flowSel then .pass else .hold)
        stall := c.stall.getD 20
        decode := some c.decode, rate := some c.rate, reportLine := some c.reportLine } := by
  rw [← strapAnchor_eq]
  rfl

/-- R118: an absent font where the image gives none. -/
theorem State.imageLoaded_fonts (s : State) (b : Byte) (straps : Straps) (i : Image) (c : ImageConfig)
    (n : Fin 4) : (s.imageLoaded b straps i c).fonts.get n = (i.fonts.get n).getD Font.absent :=
  match n with
  | 0 => rfl
  | 1 => rfl
  | 2 => rfl
  | 3 => rfl

theorem State.imageLoaded_style (s : State) (b : Byte) (straps : Straps) (i : Image) (c : ImageConfig)
    (k : Nat) : (s.imageLoaded b straps i c).style k =
      (((i.styles.getD []).reverse.find? fun e => e.1 == k).map Prod.snd).getD Style.builtIn :=
  get_styleStore _ k

/-- Settles O51: the byte is staged; a sound image is installed, and then a waiting RELOAD answered. -/
theorem imageBytes : Obligations.ImageBytes := by
  intro s b straps hbus bytes
  refine ⟨fun hmore => ?more, fun i c hdone hconfig => ?done⟩
  case more =>
    rw [exec_imageByteReceived b straps hbus, State.afterByte_of_more hmore]
    rfl
  case done =>
    have hexec := exec_imageByteReceived_of_done (straps := straps) hbus hdone hconfig
    refine ⟨s.imageLoaded b straps i c, rfl, rfl, rfl, ?conf, rfl, fun n => ?fonts,
      fun k => ⟨?styles, rfl, rfl⟩, rfl, rfl, rfl, fun hnone => ?alone, fun e rest hwaits hq => ?reload⟩
    case conf =>
      rw [State.imageLoaded_conf]
      cases c.anchor <;> cases c.flow <;> cases c.stall <;> rfl
    case fonts =>
      rw [State.imageLoaded_fonts]
      cases i.fonts.get n <;> rfl
    case styles =>
      rw [State.imageLoaded_style]
      cases (i.styles.getD []).reverse.find? fun e => e.1 == k <;> rfl
    case alone =>
      rw [hexec, State.completeReload_of_none (s := s.imageLoaded b straps i c) hnone]
    case reload =>
      rw [hexec, State.completeReload_of_waiting (s := s.imageLoaded b straps i c) hwaits hq]
      rfl

end Sys2Proof.Machine

/-! ## The headers of an image and of its sections (R168, R174, 12.6; notes/assumptions/14.md) -/

namespace Sys2Proof.Machine

/-! ### The kinds of section -/

/-- 12.6: the type of a section of each kind. -/
def SectionKind.type : SectionKind → Nat
  | .config => 0x01
  | .style => 0x02
  | .font n => 0x10 + n.val
  | .finish => 0xFF

/-- R168: a section of this kind has not been given, or may be given again. -/
def SectionKind.Open (i : Image) : SectionKind → Prop
  | .config => i.config = none
  | .style => i.styles = none
  | .font n => i.fonts.get n = none
  | .finish => True

/-- R168: the kind of a section is that of its type, where such a section may be given. -/
theorem sectionKind_eq_some (i : Image) (ty : Nat) (kind : SectionKind) :
    sectionKind i ty = some kind ↔ ty = kind.type ∧ kind.Open i := by
  constructor
  · intro h
    unfold sectionKind at h
    split_ifs at h with hconfig hgiven hstyle hgiven hend hfont
    · cases h
      exact ⟨hconfig, Option.not_isSome_iff_eq_none.mp hgiven⟩
    · cases h
      exact ⟨hstyle, Option.not_isSome_iff_eq_none.mp hgiven⟩
    · cases h
      exact ⟨hend, trivial⟩
    · split at h
      · rename_i n hn
        split_ifs at h with hgiven
        cases h
        have hval : ty - 0x10 = n.val := four?_eq_some.mp hn
        exact ⟨show ty = 0x10 + n.val by omega, Option.not_isSome_iff_eq_none.mp hgiven⟩
      · cases h
  · rintro ⟨rfl, hopen⟩
    cases kind with
    | config =>
      have hnone : i.config = none := hopen
      simp only [sectionKind, SectionKind.type, hnone, if_true, Option.isSome_none, Bool.false_eq_true,
        if_false]
    | style =>
      have hnone : i.styles = none := hopen
      simp only [sectionKind, SectionKind.type, hnone, if_true, Option.isSome_none, Bool.false_eq_true,
        if_false, OfNat.ofNat_ne_one]
    | font n =>
      have hn : four? (0x10 + n.val - 0x10) = some n := four?_eq_some.mpr (by omega)
      have h1 : ¬ 0x10 + n.val = 0x01 := by omega
      have h2 : ¬ 0x10 + n.val = 0x02 := by omega
      have h3 : ¬ 0x10 + n.val = 0xFF := by omega
      have hnone : i.fonts.get n = none := hopen
      simp only [sectionKind, SectionKind.type, h1, h2, h3, hn, hnone, if_false, Nat.le_add_right,
        if_true, Option.isSome_none, Bool.false_eq_true]
    | finish => rfl

/-- 12.6: each kind of section has a type of its own. -/
theorem SectionKind.type_injective : Function.Injective SectionKind.type := fun k k' h => by
  have hopen : ∀ kind : SectionKind, kind.Open Image.empty := fun kind =>
    match kind with
    | .config => rfl
    | .style => rfl
    | .font n => Four.get_all none n
    | .finish => trivial
  have hk := (sectionKind_eq_some Image.empty k.type k).mpr ⟨rfl, hopen k⟩
  have hk' := (sectionKind_eq_some Image.empty k.type k').mpr ⟨h, hopen k'⟩
  exact Option.some.inj (hk.symm.trans hk')

/-- R168: the types that are known. -/
theorem sectionKind_known (i : Image) (ty : Nat) :
    (∃ kind, sectionKind i ty = some kind) ↔
      (ty = 0x01 ∧ i.config = none) ∨ (ty = 0x02 ∧ i.styles = none) ∨
        (∃ n : Fin 4, ty = 0x10 + n.val ∧ i.fonts.get n = none) ∨ ty = 0xFF := by
  simp only [sectionKind_eq_some]
  constructor
  · rintro ⟨kind, hty, hopen⟩
    cases kind with
    | config => exact .inl ⟨hty, hopen⟩
    | style => exact .inr (.inl ⟨hty, hopen⟩)
    | font n => exact .inr (.inr (.inl ⟨n, hty, hopen⟩))
    | finish => exact .inr (.inr (.inr hty))
  · rintro (⟨hty, hopen⟩ | ⟨hty, hopen⟩ | ⟨n, hty, hopen⟩ | hty)
    · exact ⟨.config, hty, hopen⟩
    · exact ⟨.style, hty, hopen⟩
    · exact ⟨.font n, hty, hopen⟩
    · exact ⟨.finish, hty, trivial⟩

/-! ### The lengths a section can have -/

/-- R168: sections with an END behind them can fill the room, by the bytes beyond the least. -/
abbrev RoomEnds (config style font : Bool) (room : Nat) : Prop :=
  ∃ more : Nat, room = (if config = true then 44 else 4) + more ∧
    (more = 0 ∨ (style = true ∧ more % 48 = 4 ∧ more ≤ 1540) ∨
      (font = true ∧ (more = 8 ∨ more = 12 ∨ 16 ≤ more)))

/-- R168: whether a FONT other than the section's own may follow. -/
abbrev FontLeft (i : Image) (ty : Nat) : Bool :=
  decide (∃ m : Fin 4, ty ≠ 0x10 + m.val ∧ i.fonts.get m = none)

/-- The model's search for a font still to come, where `own` is the section's font if it has one. -/
theorem fours_any_isNone (i : Image) {own : Option (Fin 4)} {ty : Nat}
    (h : ∀ m : Fin 4, some m ≠ own ↔ ty ≠ 0x10 + m.val) :
    (fours.any fun m => some m != own && (i.fonts.get m).isNone) = FontLeft i ty := by
  rw [Bool.eq_iff_iff, List.any_eq_true, FontLeft, decide_eq_true_eq]
  simp only [mem_fours, true_and, Bool.and_eq_true, bne_iff_ne, Option.isNone_iff_eq_none, h]

/-- R118, R174: the lengths of a FONT body. -/
theorem fontLength_iff (len : Nat) : fontLength len = true ↔ len = 4 ∨ len = 8 ∨ 12 ≤ len := by
  simp only [fontLength, Bool.or_eq_true, beq_iff_eq, decide_eq_true_eq, or_assoc]

/-- R168, R174: the lengths that a section of each kind takes, by what they leave of the image. -/
def SectionKind.Takes (total off : Nat) (i : Image) (len : Nat) (kind : SectionKind) : Prop :=
  let room := total - (off + 4 + len)
  let font := FontLeft i kind.type
  match kind with
  | .config => len = 36 ∧ RoomEnds false i.styles.isNone font room
  | .style => len % 48 = 0 ∧ len ≤ 1536 ∧ RoomEnds i.config.isNone false font room
  | .font _ => (len = 4 ∨ len = 8 ∨ 12 ≤ len) ∧ RoomEnds i.config.isNone i.styles.isNone font room
  | .finish => len = 0 ∧ i.config.isNone = false ∧ room = 0

theorem sectionFits_iff (total off : Nat) (i : Image) (kind : SectionKind) (len : Nat) :
    sectionFits total off i kind len = true ↔
      off + 4 + len ≤ total ∧ kind.Takes total off i len := by
  have hconfig : ∀ m : Fin 4, some m ≠ none ↔ SectionKind.config.type ≠ 0x10 + m.val := fun m =>
    iff_of_true (Option.some_ne_none m) (show 0x01 ≠ 0x10 + m.val by omega)
  have hstyle : ∀ m : Fin 4, some m ≠ none ↔ SectionKind.style.type ≠ 0x10 + m.val := fun m =>
    iff_of_true (Option.some_ne_none m) (show 0x02 ≠ 0x10 + m.val by omega)
  have hfont : ∀ n m : Fin 4, some m ≠ some n ↔ (SectionKind.font n).type ≠ 0x10 + m.val := fun n m => by
    simp only [SectionKind.type, ne_eq, Option.some.injEq, Nat.add_left_cancel_iff, Fin.val_inj, eq_comm]
  unfold sectionFits
  dsimp only
  rw [Bool.and_eq_true, decide_eq_true_eq]
  refine and_congr_right fun _ => ?_
  cases kind with
  | config =>
    rw [Bool.and_eq_true, beq_iff_eq, fours_any_isNone i hconfig, roomFits_iff]
    rfl
  | style =>
    rw [Bool.and_eq_true, Bool.and_eq_true, beq_iff_eq, decide_eq_true_eq, fours_any_isNone i hstyle,
      roomFits_iff, and_assoc]
    rfl
  | font n =>
    rw [Bool.and_eq_true, fontLength_iff, fours_any_isNone i (hfont n), roomFits_iff]
    rfl
  | finish =>
    rw [Bool.and_eq_true, Bool.and_eq_true, beq_iff_eq, beq_iff_eq, and_assoc,
      ← Option.not_isNone, Bool.not_eq_true']
    rfl

/-- R168, R174: what a section takes, asked type by type. -/
theorem SectionKind.takes_iff {kind : SectionKind} {ty : Nat} (hty : ty = kind.type) (total off : Nat)
    (i : Image) (len : Nat) :
    let room := total - (off + 4 + len)
    let font := FontLeft i ty
    ((ty = 0x01 → len = 36 ∧ RoomEnds false i.styles.isNone font room) ∧
      (ty = 0x02 → len % 48 = 0 ∧ len ≤ 1536 ∧ RoomEnds i.config.isNone false font room) ∧
      (0x10 ≤ ty → ty < 0x14 →
        (len = 4 ∨ len = 8 ∨ 12 ≤ len) ∧ RoomEnds i.config.isNone i.styles.isNone font room) ∧
      (ty = 0xFF → len = 0 ∧ i.config.isNone = false ∧ room = 0)) ↔ kind.Takes total off i len := by
  subst hty
  cases kind with
  | config =>
    exact ⟨fun h => h.1 rfl, fun h => ⟨fun _ => h, fun e => absurd e (by decide),
      fun e => absurd e (by decide), fun e => absurd e (by decide)⟩⟩
  | style =>
    exact ⟨fun h => h.2.1 rfl, fun h => ⟨fun e => absurd e (by decide), fun _ => h,
      fun e => absurd e (by decide), fun e => absurd e (by decide)⟩⟩
  | font n =>
    have hlow : 0x10 ≤ (SectionKind.font n).type := Nat.le_add_right _ _
    have hhigh : (SectionKind.font n).type < 0x14 := Nat.add_lt_add_left n.isLt 0x10
    exact ⟨fun h => h.2.2.1 hlow hhigh, fun h => ⟨fun e => by omega, fun e => by omega,
      fun _ _ => h, fun e => by omega⟩⟩
  | finish =>
    exact ⟨fun h => h.2.2.2 rfl, fun h => ⟨fun e => absurd e (by decide), fun e => absurd e (by decide),
      fun _ e => absurd e (by decide), fun _ => h⟩⟩

/-- R168, R174: some length that agrees with the bytes received fits a section of this kind. -/
abbrev SectionMay (total off : Nat) (i : Image) (kind : SectionKind) (bs : List Byte) : Prop :=
  fieldMay bs 2 total (sectionFits total off i kind) = true

theorem sectionMay_iff (total off : Nat) (i : Image) (kind : SectionKind) (bs : List Byte) :
    SectionMay total off i kind bs ↔
      ∃ x, x < 65536 ∧ (off + 4 + x ≤ total ∧ kind.Takes total off i x) ∧
        (3 ≤ bs.length → x % 256 = (bs.getD 2 0).toNat) ∧
        (4 ≤ bs.length → x / 256 = (bs.getD 3 0).toNat) := by
  rw [SectionMay, fieldMay_iff bs 2 total _ fun x hx => by
    have hend := sectionFits_le total off x i kind hx
    omega]
  simp only [sectionFits_iff]
  rfl

/-! ### The scan of the sections -/

/-- What follows a part that has been scanned whole. -/
def Scan.bind {α β : Type} (x : Scan α) (f : α → Scan β) : Scan β :=
  match x with
  | .fail r => .fail r
  | .more => .more
  | .done a => f a

theorem scanBody_config (i : Image) (len : Nat) (bs : List Byte) :
    scanBody i .config len bs = (scanConfig bs).map fun c => { i with config := some c } := by
  unfold scanBody
  cases scanConfig bs <;> rfl

theorem scanBody_style (i : Image) (len : Nat) (bs : List Byte) :
    scanBody i .style len bs =
      (scanStyles (len / 48) [] bs).map fun ss => { i with styles := some ss } := by
  unfold scanBody
  cases scanStyles (len / 48) [] bs <;> rfl

/-- R117, R118: the nibbles that the fonts of an image store. -/
theorem Image.nibbleCount_eq (i : Image) :
    let stored : Fin 4 → Nat := fun m => match i.fonts.get m with
      | none => 0
      | some g => (g.glyphs.map fun e => e.2.nibbles.length).sum
    i.nibbleCount = stored 0 + stored 1 + stored 2 + stored 3 := by
  intro stored
  have hstored : ∀ m, ((i.fonts.get m).map Font.nibbleCount).getD 0 = stored m := fun m => by
    simp only [stored]
    cases i.fonts.get m <;> rfl
  rw [← hstored, ← hstored, ← hstored, ← hstored]
  simp only [Image.nibbleCount, Four.toList, List.map_cons, List.map_nil, List.sum_cons, List.sum_nil,
    Four.get, Nat.add_zero, Nat.add_assoc]

theorem scanBody_font (i : Image) (n : Fin 4) (len : Nat) (bs : List Byte) :
    scanBody i (.font n) len bs = (scanFont len bs).bind fun f =>
      if 1048576 < ({ i with fonts := i.fonts.set n (some f) } : Image).nibbleCount then .fail .format
      else .done { i with fonts := i.fonts.set n (some f) } := by
  unfold scanBody
  cases scanFont len bs <;> rfl

section
variable {total fuel off : Nat} {i : Image} {bs : List Byte}

theorem scanSections_nil : scanSections total (fuel + 1) off i [] = .more := rfl

/-- R168: a section of a type that is unknown, or given twice. -/
theorem scanSections_unknown (hbs : bs ≠ []) (h : sectionKind i (fieldSoFar bs 0 1) = none) :
    scanSections total (fuel + 1) off i bs = .fail .format := by
  have hwhole : fieldWhole bs 0 1 = true :=
    (fieldWhole_iff bs 0 1).mpr (List.length_pos_of_ne_nil hbs)
  simp only [scanSections, hwhole, h]
  rfl

/-- R168, R174: a section of a known type, by the bytes of its header and its body. -/
theorem scanSections_known {kind : SectionKind} (hbs : bs ≠ [])
    (h : sectionKind i (fieldSoFar bs 0 1) = some kind) :
    let len := fieldSoFar bs 2 2
    scanSections total (fuel + 1) off i bs =
      if 65536 < off + 4 + len then .fail .imageOverrun
      else if ¬ SectionMay total off i kind bs then .fail .format
      else if bs.length < 4 then .more
      else (scanBody i kind len ((bs.drop 4).take len)).bind fun i' =>
        if kind = .finish then .done i'
        else scanSections total fuel (off + 4 + len) i' (bs.drop (4 + len)) := by
  intro len
  have hwhole : fieldWhole bs 0 1 = true :=
    (fieldWhole_iff bs 0 1).mpr (List.length_pos_of_ne_nil hbs)
  have hhead : (!fieldWhole bs 2 2) = true ↔ bs.length < 4 := by
    rw [Bool.not_eq_true', ← Bool.not_eq_true, fieldWhole_iff]
    omega
  have hmay : (!fieldMay bs 2 total (sectionFits total off i kind)) = true ↔
      ¬ SectionMay total off i kind bs := by
    rw [Bool.not_eq_true', SectionMay, Bool.not_eq_true]
  rw [scanSections]
  simp only [hwhole, h, Bool.not_true, Bool.false_eq_true, if_false]
  refine if_congr Iff.rfl rfl (if_congr hmay rfl (if_congr hhead rfl ?_))
  cases scanBody i kind len ((bs.drop 4).take len) <;> rfl

end

/-- R168: an END fits behind a CONFIG alone, so a sound image has one. -/
theorem config_of_scanSections_done (total : Nat) : ∀ (fuel off : Nat) (i j : Image) (bs : List Byte),
    scanSections total fuel off i bs = .done j → j.config ≠ none
  | 0, _, _, _, _, h => by cases h
  | fuel + 1, off, i, j, bs, h => by
    by_cases hbs : bs = []
    · rw [hbs] at h
      cases h
    · cases hkind : sectionKind i (fieldSoFar bs 0 1) with
      | none =>
        rw [scanSections_unknown hbs hkind] at h
        cases h
      | some kind =>
        rw [scanSections_known hbs hkind] at h
        split_ifs at h with hover hmay hshort hend
        · subst hend
          obtain ⟨_, _, ⟨_, _, hgiven, _⟩, _⟩ := (sectionMay_iff ..).mp hmay
          cases h
          intro hnone
          rw [hnone] at hgiven
          cases hgiven
        · cases hbody : scanBody i kind (fieldSoFar bs 2 2) ((bs.drop 4).take (fieldSoFar bs 2 2)) with
          | fail r => rw [hbody] at h; cases h
          | more => rw [hbody] at h; cases h
          | done i' =>
            rw [hbody] at h
            exact config_of_scanSections_done total fuel _ i' j _ h

/-! ### The header of the image -/

/-- R168: the header, by what has been received of it. -/
theorem scanImage_header (lo hi : Byte) (bs : List Byte) :
    let total := 4 + lo.toNat + 256 * hi.toNat
    scanImage (0xC3 :: 0x5A :: lo :: hi :: bs) =
      if 65536 < total then .fail .imageOverrun
      else if ¬ roomFits true true true (total - 4) = true then .fail .format
      else scanSections total total 4 Image.empty bs := by
  intro total
  have htotal : 4 + fieldSoFar (0xC3 :: 0x5A :: lo :: hi :: bs) 2 2 = total := by
    rw [fieldSoFar_two, ← Nat.add_assoc]
    rfl
  have hroom : (!roomFits true true true (total - 4)) = true ↔
      ¬ roomFits true true true (total - 4) = true := by
    rw [Bool.not_eq_true', Bool.not_eq_true]
  have hlong : ¬ (0xC3 :: 0x5A :: lo :: hi :: bs).length < 4 := by simp
  have hmark0 : fieldSoFar (0xC3 :: 0x5A :: lo :: hi :: bs) 0 1 = 0xC3 := fieldSoFar_one _ 0
  have hmark1 : fieldSoFar (0xC3 :: 0x5A :: lo :: hi :: bs) 1 1 = 0x5A := fieldSoFar_one _ 1
  rw [scanImage, htotal, hmark0, hmark1]
  simp only [bne_self_eq_false, Bool.and_false, Bool.false_eq_true, if_false, hlong]
  exact if_congr Iff.rfl rfl (if_congr hroom rfl rfl)

/-- R168: a first byte that is not the mark's. -/
theorem scanImage_blank_first {a : Byte} (ha : a ≠ 0xC3) (bs : List Byte) :
    scanImage (a :: bs) = .fail .blank := by
  have hval : fieldSoFar (a :: bs) 0 1 ≠ 0xC3 := by
    rw [fieldSoFar_one]
    exact fun h => ha (BitVec.eq_of_toNat_eq h)
  have hwhole : fieldWhole (a :: bs) 0 1 = true := (fieldWhole_iff _ 0 1).mpr (by simp)
  exact if_pos (by rw [hwhole, bne_iff_ne.mpr hval]; rfl)

/-- R168: a second byte that is not the mark's. -/
theorem scanImage_blank_second {b : Byte} (hb : b ≠ 0x5A) (bs : List Byte) :
    scanImage (0xC3 :: b :: bs) = .fail .blank := by
  have hval : fieldSoFar (0xC3 :: b :: bs) 1 1 ≠ 0x5A := by
    rw [fieldSoFar_one]
    exact fun h => hb (BitVec.eq_of_toNat_eq h)
  have hmark : fieldSoFar (0xC3 :: b :: bs) 0 1 = 0xC3 := fieldSoFar_one _ 0
  have hwhole : fieldWhole (0xC3 :: b :: bs) 1 1 = true := (fieldWhole_iff _ 1 1).mpr (by simp)
  rw [scanImage, hmark]
  exact (if_neg (by simp)).trans (if_pos (by rw [hwhole, bne_iff_ne.mpr hval]; rfl))

/-- R168: a sound image has a CONFIG. -/
theorem config_of_scanImage_done {bs : List Byte} {i : Image} (h : scanImage bs = .done i) :
    i.config ≠ none := by
  unfold scanImage at h
  dsimp only at h
  split_ifs at h
  exact config_of_scanSections_done _ _ _ _ _ _ h

/-! ### The statement -/

/-- Settles O52: the mark and the length, and each section by its type and the lengths left to it. -/
theorem imageSections : Obligations.ImageSections := by
  unfold Obligations.ImageSections
  intro ends
  refine ⟨rfl, rfl, fun b => ⟨rfl, rfl⟩, fun a b bs => ⟨fun ha => scanImage_blank_first ha bs,
    fun hb => scanImage_blank_second hb bs⟩, fun lo hi bs => ?header, ?sections,
    fun bs i h => config_of_scanImage_done h⟩
  case header =>
    intro total scan
    have hscan : scan = _ := scanImage_header lo hi bs
    have hroom : roomFits true true true (total - 4) = true ↔ ends true true true (total - 4) :=
      roomFits_iff ..
    refine ⟨fun hover => ?_, fun hin hends => ?_, fun hin hends => ?_⟩
    · rw [hscan, if_pos hover]
    · rw [hscan, if_neg (Nat.not_lt.mpr hin), if_pos (mt hroom.mp hends)]
    · rw [hscan, if_neg (Nat.not_lt.mpr hin), if_neg (not_not.mpr (hroom.mpr hends))]
      rfl
  case sections =>
    intro total fuel off i bs byte type len stop known takes fits scan
    have htype : fieldSoFar bs 0 1 = type := fieldSoFar_one bs 0
    have hlen : fieldSoFar bs 2 2 = len := fieldSoFar_two bs 2
    have hknown : (∃ kind, sectionKind i type = some kind) ↔ known := sectionKind_known i type
    refine ⟨fun h => ?nil, fun hbs h => ?unknown, fun hbs h => ?known⟩
    case nil =>
      subst h
      exact scanSections_nil
    case unknown =>
      refine scanSections_unknown hbs ?_
      rw [htype]
      exact Option.eq_none_iff_forall_ne_some.mpr fun kind hkind => h (hknown.mp ⟨kind, hkind⟩)
    case known =>
      obtain ⟨kind, hkind⟩ := hknown.mpr h
      obtain ⟨hty, _⟩ := (sectionKind_eq_some i type kind).mp hkind
      have hscan : scan = _ := scanSections_known hbs (htype ▸ hkind)
      rw [hlen] at hscan
      have htakes : ∀ x, (off + 4 + x ≤ total ∧ kind.Takes total off i x) ↔ takes x := fun x =>
        and_congr_right fun _ => (SectionKind.takes_iff hty total off i x).symm
      have hfits : SectionMay total off i kind bs ↔ fits := by
        simp only [sectionMay_iff, htakes]
        rfl
      refine ⟨fun hover => ?_, fun hin hno => ?_, fun hin hfit => ⟨fun hshort => ?_, fun hlong => ?_⟩⟩
      · rw [hscan, if_pos hover]
      · rw [hscan, if_neg (Nat.not_lt.mpr hin), if_pos (mt hfits.mp hno)]
      · rw [hscan, if_neg (Nat.not_lt.mpr hin), if_neg (not_not.mpr (hfits.mpr hfit)), if_pos hshort]
      · intro bytes rest
        have hbody : scan = (scanBody i kind len bytes).bind fun i' =>
            if kind = .finish then .done i' else scanSections total fuel stop i' rest := by
          rw [hscan, if_neg (Nat.not_lt.mpr hin), if_neg (not_not.mpr (hfits.mpr hfit)),
            if_neg (Nat.not_lt.mpr hlong)]
        have hown : ∀ k : SectionKind, type = k.type → kind = k := fun k e =>
          SectionKind.type_injective (hty.symm.trans e)
        refine ⟨fun e => ?finish, fun e => ?config, fun e => ?style, fun n e => ?font⟩
        case finish =>
          rw [hbody, hown .finish e]
          rfl
        case config =>
          rw [hbody, hown .config e, scanBody_config]
          cases scanConfig bytes <;> rfl
        case style =>
          rw [hbody, hown .style e, scanBody_style]
          cases scanStyles (len / 48) [] bytes <;> rfl
        case font =>
          rw [hbody, hown (.font n) e, scanBody_font]
          cases scanFont len bytes with
          | fail r => rfl
          | more => rfl
          | done f =>
            have hcount := Image.nibbleCount_eq { i with fonts := i.fonts.set n (some f) }
            exact (apply_ite (fun x : Scan Image => x.bind _) _ _ _).trans
              (if_congr (iff_of_eq (congrArg (1048576 < ·) hcount)) rfl rfl)

end Sys2Proof.Machine

/-! ## The BCD times (R123 to R125; 00_scope.md, Time of day) -/

namespace Sys2Proof.Machine

/-! ### BCD bytes -/

/-- The value of a BCD byte. -/
def bcdValue (b : Byte) : Nat := 10 * (b.toNat / 16) + b.toNat % 16

/-- In BCD the order of the bytes is the order of the values. -/
theorem bcdValue_le_iff {b : Byte} (h : bcdDigits b = true) {p q : Nat} (hq : q ≤ 9) :
    bcdValue b ≤ 10 * p + q ↔ b.toNat ≤ 16 * p + q := by
  have ⟨_, hlow⟩ := (bcdDigits_iff b).mp h
  unfold bcdValue
  omega

theorem bcdValue_eq_iff {b : Byte} (h : bcdDigits b = true) {p q : Nat} (hq : q ≤ 9) :
    bcdValue b = 10 * p + q ↔ b.toNat = 16 * p + q := by
  have ⟨_, hlow⟩ := (bcdDigits_iff b).mp h
  unfold bcdValue
  omega

theorem bcdSucc_toNat {b : Byte} (h : b.toNat < 249) :
    (bcdSucc b).toNat = if b.toNat % 16 = 9 then b.toNat + 7 else b.toNat + 1 := by
  unfold bcdSucc
  split
  · exact BitVec.toNat_add_of_lt (show b.toNat + 7 < 256 by omega)
  · exact BitVec.toNat_add_of_lt (show b.toNat + 1 < 256 by omega)

/-- R124: below 99 the successor is the BCD byte of the next value. -/
theorem bcdSucc_spec {b : Byte} (h : bcdDigits b = true) (hlt : bcdValue b < 99) :
    bcdDigits (bcdSucc b) = true ∧ bcdValue (bcdSucc b) = bcdValue b + 1 := by
  obtain ⟨hhigh, hlow⟩ := (bcdDigits_iff b).mp h
  rw [bcdDigits_iff, bcdValue, bcdSucc_toNat (by omega)]
  unfold bcdValue at hlt ⊢
  split <;> omega

/-! ### Times of day -/

/-- R125: a BCD time, by the digits and the values of its bytes. -/
structure TimeOfDay.Proper (t : TimeOfDay) : Prop where
  hourDigits   : bcdDigits t.hours = true
  minuteDigits : bcdDigits t.minutes = true
  secondDigits : bcdDigits t.seconds = true
  hours        : bcdValue t.hours ≤ 23
  minutes      : bcdValue t.minutes ≤ 59
  seconds      : bcdValue t.seconds ≤ 59

theorem TimeOfDay.valid_iff (t : TimeOfDay) : t.valid = true ↔ t.Proper := by
  simp only [TimeOfDay.valid, Bool.and_eq_true, decide_eq_true_eq]
  constructor
  · rintro ⟨⟨⟨⟨⟨hh, hm⟩, hs⟩, hour⟩, min⟩, sec⟩
    exact ⟨hh, hm, hs, (bcdValue_le_iff hh (p := 2) (q := 3) (by omega)).mpr hour,
      (bcdValue_le_iff hm (p := 5) (q := 9) (by omega)).mpr min,
      (bcdValue_le_iff hs (p := 5) (q := 9) (by omega)).mpr sec⟩
  · rintro ⟨hh, hm, hs, hour, min, sec⟩
    exact ⟨⟨⟨⟨⟨hh, hm⟩, hs⟩, (bcdValue_le_iff hh (p := 2) (q := 3) (by omega)).mp hour⟩,
      (bcdValue_le_iff hm (p := 5) (q := 9) (by omega)).mp min⟩,
      (bcdValue_le_iff hs (p := 5) (q := 9) (by omega)).mp sec⟩

/-- The second of the day that a time names. -/
def TimeOfDay.daySecond (t : TimeOfDay) : Nat :=
  3600 * bcdValue t.hours + 60 * bcdValue t.minutes + bcdValue t.seconds

/-- A BCD byte other than the last of its range has the next value in the range. -/
theorem bcdValue_lt_of_ne {b : Byte} (h : bcdDigits b = true) {p q : Nat} (hq : q ≤ 9)
    (hle : bcdValue b ≤ 10 * p + q) (hne : b ≠ BitVec.ofNat 8 (16 * p + q)) :
    bcdValue b < 10 * p + q := by
  refine Nat.lt_of_le_of_ne hle fun heq => hne ?_
  rw [← (bcdValue_eq_iff h hq).mp heq, BitVec.ofNat_toNat, BitVec.setWidth_eq]

theorem TimeOfDay.daySecond_mk (h m s : Byte) :
    ({ hours := h, minutes := m, seconds := s } : TimeOfDay).daySecond =
      3600 * bcdValue h + 60 * bcdValue m + bcdValue s := rfl

/-- R124: the successor of a BCD time is the BCD time of the next second of the day. -/
theorem TimeOfDay.Proper.succ {t : TimeOfDay} (h : t.Proper) :
    t.succ.Proper ∧ t.succ.daySecond = (t.daySecond + 1) % 86400 := by
  obtain ⟨hh, hm, hs, hour, min, sec⟩ := h
  obtain ⟨hours, minutes, seconds⟩ := t
  dsimp only at hh hm hs hour min sec
  have digits0 : bcdDigits 0 = true := rfl
  have value0 : bcdValue 0 = 0 := rfl
  have le0 : bcdValue 0 ≤ 59 := Nat.zero_le _
  simp only [TimeOfDay.succ]
  by_cases hsec : seconds = 0x59
  · have valueS : bcdValue seconds = 59 := by rw [hsec]; rfl
    by_cases hmin : minutes = 0x59
    · have valueM : bcdValue minutes = 59 := by rw [hmin]; rfl
      by_cases hhour : hours = 0x23
      · rw [if_pos hsec, if_pos hmin, if_pos hhour, hsec, hmin, hhour]
        exact ⟨(TimeOfDay.valid_iff _).mp rfl, rfl⟩
      · have hlt := bcdValue_lt_of_ne hh (p := 2) (q := 3) (by omega) hour hhour
        obtain ⟨hd, hv⟩ := bcdSucc_spec hh (by omega)
        rw [if_pos hsec, if_pos hmin, if_neg hhour]
        refine ⟨⟨hd, digits0, digits0, hv ▸ hlt, le0, le0⟩, ?_⟩
        rw [TimeOfDay.daySecond_mk, TimeOfDay.daySecond_mk, hv, valueM, valueS, value0]
        omega
    · have hlt := bcdValue_lt_of_ne hm (p := 5) (q := 9) (by omega) min hmin
      obtain ⟨hd, hv⟩ := bcdSucc_spec hm (by omega)
      rw [if_pos hsec, if_neg hmin]
      refine ⟨⟨hh, hd, digits0, hour, hv ▸ hlt, le0⟩, ?_⟩
      rw [TimeOfDay.daySecond_mk, TimeOfDay.daySecond_mk, hv, valueS, value0]
      omega
  · have hlt := bcdValue_lt_of_ne hs (p := 5) (q := 9) (by omega) sec hsec
    obtain ⟨hd, hv⟩ := bcdSucc_spec hs (by omega)
    rw [if_neg hsec]
    refine ⟨⟨hh, hm, hd, hour, min, hv ▸ hlt⟩, ?_⟩
    rw [TimeOfDay.daySecond_mk, TimeOfDay.daySecond_mk, hv]
    omega

end Sys2Proof.Machine

/-! ## Fired actions and the schedule (R128, R129, R133) -/

namespace Sys2Proof.Machine

/-! ### What an action on lanes changes -/

/-- What an action fired on lanes can change: the lanes and the event bits. -/
abbrev State.FireFrame (s t : State) : Prop :=
  t = { s with lanes := t.lanes, rep := { s.rep with events := t.rep.events } }

theorem State.FireFrame.trans {s t u : State} (h : s.FireFrame t) (k : t.FireFrame u) :
    s.FireFrame u := by
  unfold State.FireFrame at k
  rw [h] at k
  exact k

theorem State.FireFrame.kept {s t : State} (h : s.FireFrame t) :
    t.clock = s.clock ∧ t.conf = s.conf ∧ t.schedule = s.schedule :=
  ⟨congrArg (·.clock) h, congrArg (·.conf) h, congrArg (·.schedule) h⟩

theorem State.FireFrame.raiseIf (s : State) (c : Bool) (e : Event) : s.FireFrame (s.raiseIf c e) := by
  cases c <;> rfl

theorem State.FireFrame.actOnLane (s : State) (a : LaneAction) (n : Fin 4) :
    s.FireFrame (s.actOnLane a n).1 := by
  obtain ⟨l, e⟩ := s.actOnLane_frame a n
  rw [e]
  rfl

theorem State.FireFrame.overLanes (s : State) (a : LaneAction) (ns : List (Fin 4)) :
    s.FireFrame (State.overLanes (fun s n => s.actOnLane a n) s ns).1 :=
  State.overLanes_induct (P := s.FireFrame) (fun t n h => h.trans (.actOnLane t a n)) ns s rfl

theorem State.FireFrame.fireOnLanes (s : State) (a : LaneAction) (mask : BitVec 4) :
    s.FireFrame (s.fireOnLanes a mask) :=
  (State.FireFrame.overLanes s a _).trans (.raiseIf _ _ _)

/-- R129: the action of a fired entry. -/
theorem State.FireFrame.fireEntry (s : State) (e : SchedEntry) : s.FireFrame (s.fireEntry e) := by
  unfold State.fireEntry
  split
  · exact .fireOnLanes s _ _
  · exact List.foldlRecOn (motive := s.FireFrame) _ _ rfl fun t h n _ => h.trans rfl

/-! ### An entry that fires (R128) -/

/-- R128: entry `i`, holding `e`, fires: a ONCE entry is disarmed, and the action is applied. -/
def State.fireSlot (s : State) (i : Nat) (e : SchedEntry) : State :=
  (if e.daily then s else s.setSchedEntry i { e with armed := false }).fireEntry e

theorem State.fireIfDue_eq (s : State) (i : Nat) :
    s.fireIfDue i =
      if (s.schedEntry i).due s.clock.time = true then s.fireSlot i (s.schedEntry i) else s := rfl

theorem State.fireSlot_kept (s : State) (i : Nat) (e : SchedEntry) :
    (s.fireSlot i e).clock = s.clock ∧ (s.fireSlot i e).conf = s.conf ∧
      (s.fireSlot i e).schedule =
        if e.daily = true then s.schedule
        else Store.put SchedEntry.initial s.schedule i { e with armed := false } := by
  unfold State.fireSlot
  by_cases h : e.daily = true
  · rw [if_pos h, if_pos h]
    exact (State.FireFrame.fireEntry s e).kept
  · rw [if_neg h, if_neg h]
    exact (State.FireFrame.fireEntry _ e).kept

theorem State.fireIfDue_clock (s : State) (i : Nat) :
    (s.fireIfDue i).clock = s.clock ∧ (s.fireIfDue i).conf = s.conf := by
  rw [State.fireIfDue_eq]
  split
  · obtain ⟨hclock, hconf, _⟩ := s.fireSlot_kept i (s.schedEntry i)
    exact ⟨hclock, hconf⟩
  · exact ⟨rfl, rfl⟩

/-- R128: what a schedule entry is behind the tick to a time. -/
def SchedEntry.after (e : SchedEntry) (time : TimeOfDay) : SchedEntry :=
  if e.due time = true ∧ e.daily = false then { e with armed := false } else e

theorem SchedEntry.due_iff (e : SchedEntry) (time : TimeOfDay) :
    e.due time = true ↔ e.armed = true ∧ e.time = time := by
  rw [SchedEntry.due, Bool.and_eq_true, decide_eq_true_eq]

/-- A disarmed entry is not due again. -/
theorem SchedEntry.after_after (e : SchedEntry) (time : TimeOfDay) :
    (e.after time).after time = e.after time := by
  by_cases h : e.due time = true ∧ e.daily = false
  · have hafter : e.after time = { e with armed := false } := if_pos h
    rw [hafter]
    exact if_neg fun hdue => nomatch hdue.1
  · have hafter : e.after time = e := if_neg h
    rw [hafter, hafter]

theorem State.fireIfDue_schedule (s : State) (i : Nat) :
    (s.fireIfDue i).schedule =
      if (s.schedEntry i).due s.clock.time = true ∧ (s.schedEntry i).daily = false then
        Store.put SchedEntry.initial s.schedule i { s.schedEntry i with armed := false }
      else s.schedule := by
  obtain ⟨_, _, hschedule⟩ := s.fireSlot_kept i (s.schedEntry i)
  rw [State.fireIfDue_eq]
  by_cases hdue : (s.schedEntry i).due s.clock.time = true
  · rw [if_pos hdue, hschedule]
    by_cases hdaily : (s.schedEntry i).daily = true <;> simp [hdue, hdaily]
  · rw [if_neg hdue, if_neg fun h => hdue h.1]

/-- R128: of the entries a firing changes its own alone. -/
theorem State.fireIfDue_schedEntry {s : State} (h : Store.wf SchedEntry.initial s.schedule = true)
    (i : Nat) :
    Store.wf SchedEntry.initial (s.fireIfDue i).schedule = true ∧
      ∀ j, (s.fireIfDue i).schedEntry j =
        if j = i then (s.schedEntry j).after s.clock.time else s.schedEntry j := by
  have hschedule := s.fireIfDue_schedule i
  by_cases hfires : (s.schedEntry i).due s.clock.time = true ∧ (s.schedEntry i).daily = false
  · have hafter : (s.schedEntry i).after s.clock.time = { s.schedEntry i with armed := false } :=
      if_pos hfires
    rw [if_pos hfires] at hschedule
    refine ⟨hschedule ▸ Store.put_wf h, fun j => ?_⟩
    rw [State.schedEntry, hschedule, Store.get_put h]
    split
    · rename_i hji
      rw [hji, hafter]
    · rfl
  · have hafter : (s.schedEntry i).after s.clock.time = s.schedEntry i := if_neg hfires
    rw [if_neg hfires] at hschedule
    refine ⟨hschedule ▸ h, fun j => ?_⟩
    rw [State.schedEntry, hschedule, ← State.schedEntry]
    split
    · rename_i hji
      rw [hji, hafter]
    · rfl

/-! ### The entries in their order -/

theorem State.foldl_fireIfDue_clock (is : List Nat) (s : State) :
    (is.foldl State.fireIfDue s).clock = s.clock ∧ (is.foldl State.fireIfDue s).conf = s.conf :=
  List.foldlRecOn (motive := fun t : State => t.clock = s.clock ∧ t.conf = s.conf) is _ ⟨rfl, rfl⟩
    fun t ⟨hc, hf⟩ i _ => ⟨(t.fireIfDue_clock i).1.trans hc, (t.fireIfDue_clock i).2.trans hf⟩

/-- R128: each entry once the entries named have had their turn. -/
theorem State.foldl_fireIfDue_schedEntry : ∀ (is : List Nat) (s : State),
    Store.wf SchedEntry.initial s.schedule = true → ∀ j,
      (is.foldl State.fireIfDue s).schedEntry j =
        if j ∈ is then (s.schedEntry j).after s.clock.time else s.schedEntry j
  | [], _, _, _ => rfl
  | i :: is, s, h, j => by
    obtain ⟨hwf, hentry⟩ := State.fireIfDue_schedEntry h i
    rw [List.foldl_cons, State.foldl_fireIfDue_schedEntry is _ hwf, hentry,
      (s.fireIfDue_clock i).1]
    by_cases hji : j = i
    · simp only [hji, if_true, List.mem_cons, true_or, SchedEntry.after_after, ite_self]
    · simp only [hji, if_false, List.mem_cons, false_or]

/-- R128: an entry fires as it stood before the tick, since no other entry's firing reaches it. -/
theorem State.foldl_fireIfDue_eq (given : Nat → SchedEntry) (time : TimeOfDay) :
    ∀ (is : List Nat) (s : State), is.Nodup → Store.wf SchedEntry.initial s.schedule = true →
      s.clock.time = time → (∀ i ∈ is, s.schedEntry i = given i) →
        is.foldl State.fireIfDue s =
          is.foldl (fun x i => if (given i).due time = true then x.fireSlot i (given i) else x) s
  | [], _, _, _, _, _ => rfl
  | i :: is, s, hnodup, hwf, htime, hgiven => by
    obtain ⟨hnotin, hnodup⟩ := List.nodup_cons.mp hnodup
    obtain ⟨hwf', hentry⟩ := State.fireIfDue_schedEntry hwf i
    have hfire : s.fireIfDue i =
        if (given i).due time = true then s.fireSlot i (given i) else s := by
      rw [State.fireIfDue_eq, htime, hgiven i List.mem_cons_self]
    have hrest : ∀ j ∈ is, (s.fireIfDue i).schedEntry j = given j := fun j hj => by
      rw [hentry, if_neg (fun e : j = i => hnotin (e ▸ hj)), hgiven j (List.mem_cons_of_mem _ hj)]
    rw [List.foldl_cons, List.foldl_cons, ← hfire]
    exact State.foldl_fireIfDue_eq given time is _ hnodup hwf'
      ((congrArg Clock.time (s.fireIfDue_clock i).1).trans htime) hrest

/-- R128: with no entry due nothing fires. -/
theorem State.foldl_fireIfDue_of_none {s : State} (is : List Nat)
    (h : ∀ i ∈ is, ¬ (s.schedEntry i).due s.clock.time = true) : is.foldl State.fireIfDue s = s :=
  List.foldlRecOn (motive := fun t => t = s) is _ rfl fun t ht i hi => by
    rw [ht, State.fireIfDue_eq, if_neg (h i hi)]

/-! ### The clock's share (R124) -/

/-- R128: behind the last entry ALARM alone can be set. -/
theorem State.FireFrame.fireSchedule (s : State) :
    ((List.range Config.scheduleCount).foldl State.fireIfDue s).FireFrame s.fireSchedule :=
  .raiseIf _ _ _

theorem State.fireSchedule_clock (s : State) :
    s.fireSchedule.clock = s.clock ∧ s.fireSchedule.conf = s.conf := by
  obtain ⟨hclock, hconf⟩ := State.foldl_fireIfDue_clock (List.range Config.scheduleCount) s
  obtain ⟨hclock', hconf', _⟩ := (State.FireFrame.fireSchedule s).kept
  exact ⟨hclock'.trans hclock, hconf'.trans hconf⟩

/-- R124: where the sum reaches N, the tick: the entries due fire at the next second. -/
theorem State.accumulate_of_due {s : State} {r : FieldRate} (hr : s.conf.rate = some r)
    (h : r.n ≤ s.clock.acc + r.d) :
    s.accumulate = State.fireSchedule
      { s with clock := { time := s.clock.time.succ, acc := s.clock.acc + r.d - r.n } } := by
  unfold State.accumulate
  rw [hr]
  exact if_pos h

end Sys2Proof.Machine

/-! ## SECOND_TICK (R124, R128, R129; notes/assumptions/11.md) -/

namespace Sys2Proof.Machine

/-! ### A fired action, lane by lane (R2, R129) -/

/-- R2, R129: one lane's turn in an action, with the note that a lane has refused. -/
def State.actNoting (a : LaneAction) (y : State × Bool) (m : Fin 4) : State × Bool :=
  ((y.1.actOnLane a m).1, y.2 || (y.1.actOnLane a m).2.isSome)

/-- R2: the lanes in turn, with the note. -/
theorem State.foldl_actNoting (a : LaneAction) : ∀ (ns : List (Fin 4)) (s : State) (b : Bool),
    ns.foldl (State.actNoting a) (s, b) =
      ((State.overLanes (fun s n => s.actOnLane a n) s ns).1,
        b || (State.overLanes (fun s n => s.actOnLane a n) s ns).2.isSome)
  | [], s, b => by simp [State.overLanes]
  | n :: ns, s, b => by
    rw [List.foldl_cons, State.actNoting, State.foldl_actNoting a ns]
    simp only [State.overLanes, Option.orElse_eq_orElse, Option.orElse_eq_or, Option.isSome_or,
      Bool.or_assoc]

/-- R129: an action on the lanes of a mask, ascending; a refusal is noted in ACTION_REFUSED. -/
theorem State.fireOnLanes_eq (s : State) (a : LaneAction) (mask : BitVec 4) :
    s.fireOnLanes a mask =
      let go := fun (y : State × Bool) (m : Fin 4) =>
        if mask.getLsbD m.val then ((y.1.actOnLane a m).1, y.2 || (y.1.actOnLane a m).2.isSome) else y
      let y := go (go (go (go (s, false) 0) 1) 2) 3
      if y.2 = true then y.1.raise .actionRefused else y.1 := by
  have hy : fours.foldl
      (fun y m => if mask.getLsbD m.val = true then State.actNoting a y m else y) (s, false) = _ :=
    List.foldl_filter.symm.trans (State.foldl_actNoting a (maskLanes mask) s false)
  rw [Bool.false_or] at hy
  exact
    (congrArg (fun y : State × Bool => if y.2 = true then y.1.raise .actionRefused else y.1) hy).symm

/-- R129: SET_STYLE by the lane's state and its pending form. -/
theorem Lane.setStyle_eq (l : Lane) (k : Nat) :
    l.setStyle k =
      if l.state = .off then { l with form := { l.form with style := k } }
      else match l.pendForm with
        | some f => { l with pendForm := some { f with style := k } }
        | none => { l with pendForm := some { l.form with style := k } } := by
  unfold Lane.setStyle
  cases l.pendForm <;> rfl

/-- R129: SET_STYLE on the lanes of a mask, in ascending number. -/
theorem State.setStyleOnLanes_eq (s : State) (k : Nat) (mask : BitVec 4) :
    s.setStyleOnLanes k (maskLanes mask) =
      let go := fun (y : State) (m : Fin 4) =>
        if mask.getLsbD m.val then
          let l := y.lane m
          y.setLane m (
            if l.state = .off then { l with form := { l.form with style := k } }
            else match l.pendForm with
              | some f => { l with pendForm := some { f with style := k } }
              | none => { l with pendForm := some { l.form with style := k } })
        else y
      go (go (go (go s 0) 1) 2) 3 := by
  have hlane : ∀ (y : State) m, y.setLane m ((y.lane m).setStyle k) = y.setLane m _ := fun y m =>
    congrArg (y.setLane m) ((y.lane m).setStyle_eq k)
  rw [State.setStyleOnLanes, maskLanes, List.foldl_filter]
  simp only [hlane]
  rfl

/-! ### The tick -/

/-- R124: the state at a second tick, before the schedule's share. -/
def State.ticked (s : State) (r : FieldRate) : State :=
  { s with
    out := []
    clock := { time := s.clock.time.succ, acc := s.clock.acc + r.d - r.n } }

theorem exec_secondTick_eq {s : State} {r : FieldRate} (hon : s.OnAir) (hr : s.conf.rate = some r)
    (h : r.n ≤ s.clock.acc + r.d) : exec .secondTick s = .next (s.ticked r).fireSchedule := by
  rw [exec_secondTick_of_due hon hr h, ← State.accumulate_quiet,
    State.accumulate_of_due (s := s.quiet) hr h]
  rfl

/-- R128: an entry that is due at a time. -/
abbrev State.DueAt (s : State) (time : TimeOfDay) (i : Nat) : Prop :=
  i < 16 ∧ (s.schedEntry i).armed = true ∧ (s.schedEntry i).time = time

theorem State.fireSchedule_eq (s : State) :
    s.fireSchedule = ((List.range Config.scheduleCount).foldl State.fireIfDue s).raiseIf
      ((List.range Config.scheduleCount).any fun i => (s.schedEntry i).due s.clock.time) .alarm := rfl

theorem State.any_due_iff (s : State) :
    ((List.range Config.scheduleCount).any fun i => (s.schedEntry i).due s.clock.time) = true ↔
      ∃ i, s.DueAt s.clock.time i := by
  simp only [List.any_eq_true, List.mem_range, SchedEntry.due_iff]

/-- R128: ALARM is set where an entry fires. -/
theorem State.fireSchedule_of_due {s : State} (h : ∃ i, s.DueAt s.clock.time i) :
    s.fireSchedule = ((List.range Config.scheduleCount).foldl State.fireIfDue s).raise .alarm := by
  rw [State.fireSchedule_eq, s.any_due_iff.mpr h, State.raiseIf_true]

theorem State.fireSchedule_of_none {s : State} (h : ¬ ∃ i, s.DueAt s.clock.time i) :
    s.fireSchedule = s := by
  rw [State.fireSchedule_eq, Bool.eq_false_iff.mpr (mt s.any_due_iff.mp h), State.raiseIf_false]
  exact State.foldl_fireIfDue_of_none _ fun i hi hdue =>
    h ⟨i, List.mem_range.mp hi, (SchedEntry.due_iff _ _).mp hdue⟩

/-- R128: each entry behind the tick. -/
theorem State.fireSchedule_schedEntry {s : State}
    (h : Store.wf SchedEntry.initial s.schedule = true) (j : Nat) :
    s.fireSchedule.schedEntry j =
      if s.DueAt s.clock.time j ∧ (s.schedEntry j).daily = false then
        { s.schedEntry j with armed := false }
      else s.schedEntry j := by
  obtain ⟨_, _, hschedule⟩ := (State.FireFrame.fireSchedule s).kept
  rw [State.schedEntry, hschedule, ← State.schedEntry, State.foldl_fireIfDue_schedEntry _ s h]
  simp only [List.mem_range, SchedEntry.after, SchedEntry.due_iff, State.DueAt, and_assoc]
  split
  · rename_i hj
    simp only [hj, true_and]
  · rename_i hj
    simp only [hj, false_and, if_false]

/-- Settles O42: the next second of the day, and the entries due fire as they stood, in their order. -/
theorem secondTickAdvances : Obligations.SecondTickAdvances := by
  intro s r hon hr hn hvalid hwf value day
  obtain ⟨hproper, hday⟩ := ((TimeOfDay.valid_iff _).mp hvalid).succ
  obtain ⟨hclock, _⟩ := (s.ticked r).fireSchedule_clock
  refine ⟨(s.ticked r).fireSchedule, exec_secondTick_eq hon hr hn, ?_⟩
  rw [hclock]
  refine ⟨rfl, (TimeOfDay.valid_iff _).mpr hproper, hday, ?_⟩
  intro due
  refine ⟨fun hnone => State.fireSchedule_of_none hnone, fun hdue => ?alarm,
    fun i => State.fireSchedule_schedEntry (s := s.ticked r) hwf i, ?_⟩
  case alarm =>
    rw [State.fireSchedule_of_due hdue, State.getLsbD_raise]
    simp [Event.number]
  intro act fire fired hdue
  have hact : ∀ e x, State.fireEntry x e = act e x := fun e x => by
    cases haction : e.action with
    | lane a =>
      simp -zeta only [State.fireEntry, act, haction]
      exact State.fireOnLanes_eq x a e.mask
    | setStyle =>
      simp -zeta only [State.fireEntry, act, haction]
      exact State.setStyleOnLanes_eq x e.arg e.mask
  have hfire : (fun x i => if (s.schedEntry i).due (s.ticked r).clock.time = true then
      State.fireSlot x i (s.schedEntry i) else x) = fire := by
    funext x i
    simp only [State.fireSlot, hact, SchedEntry.due_iff]
    rfl
  have hfold : (List.range 16).foldl State.fireIfDue (s.ticked r) = fired := by
    rw [State.foldl_fireIfDue_eq s.schedEntry (s.ticked r).clock.time _ (s.ticked r) List.nodup_range
      hwf rfl fun _ _ => rfl, hfire]
    rfl
  rw [State.fireSchedule_of_due hdue, hfold]

end Sys2Proof.Machine

/-! ## What leaves the station clock (R123, R124) -/

namespace Sys2Proof.Machine

/-- The clock and the field rate, all that the clock law reads. -/
abbrev State.clockPart (s : State) : Clock × Option FieldRate := (s.clock, s.conf.rate)

section
variable (s : State)

/-! ### Events, results and the ports -/

theorem State.clockPart_raiseIf (c : Bool) (e : Event) :
    (s.raiseIf c e).clockPart = s.clockPart := by
  cases c <;> rfl

theorem State.clockPart_handOver (r : ResultWord) : (s.handOver r).clockPart = s.clockPart := by
  rw [State.handOver_eq]

theorem State.clockPart_complete (e : IntakeEntry) (r : ResultCode) :
    (s.complete e r).clockPart = s.clockPart := by
  rw [State.complete_eq]

theorem State.clockPart_emitWrite (src : Source) (size : BeatSize) (bs : List Beat) :
    (s.emitWrite src size bs).clockPart = s.clockPart := by
  unfold State.emitWrite
  split <;> rfl

/-- The port's frame holds the clock and the configuration. -/
theorem State.PortFrame.clockPart {s t : State} (h : s.PortFrame t) : t.clockPart = s.clockPart :=
  Prod.ext h.clock (congrArg Conf.rate h.conf)

theorem keepsClockPart_ports : KeptByPorts fun t => t.clockPart = s.clockPart where
  monitor := fun t b h => (State.PortFrame.monitor t b).clockPart.trans h
  settle := fun t n c d h => (State.PortFrame.settle t n c d).clockPart.trans h
  emit := fun _ _ h => h
  port := fun _ _ h => h

/-! ### Lane actions and a lane's field start work -/

theorem State.clockPart_actOnLane (a : LaneAction) (n : Fin 4) :
    (s.actOnLane a n).1.clockPart = s.clockPart := by
  obtain ⟨l, e⟩ := s.actOnLane_frame a n
  rw [e]
  rfl

theorem State.FireFrame.clockPart {s t : State} (h : s.FireFrame t) : t.clockPart = s.clockPart :=
  have ⟨hclock, hconf, _⟩ := h.kept
  Prod.ext hclock (congrArg Conf.rate hconf)

theorem clockPart_maskEffect (a : LaneAction) (c : Command) :
    (maskEffect a c s).1.clockPart = s.clockPart := by
  unfold maskEffect
  split
  · rfl
  · exact (State.FireFrame.overLanes s a _).clockPart

theorem State.clockPart_laneStep (n : Fin 4) (w : LaneWork) :
    (s.laneStep n w).1.clockPart = s.clockPart :=
  have h := s.laneStep_frame n w
  Prod.ext h.clock (congrArg Conf.rate h.conf)

theorem State.clockPart_transferStyles : s.transferStyles.clockPart = s.clockPart := by
  rw [State.transferStyles_eq]

theorem State.clockPart_checkSlot (k : Nat) : (s.checkSlot k).clockPart = s.clockPart := by
  rcases s.checkSlot_cases k with e | ⟨v, _, e⟩ <;> rw [e]
  rfl

/-! ### The scan port (R94, R131, R133, R161) -/

theorem State.clockPart_sampleCue (n : Fin 4) : (s.sampleCue n).clockPart = s.clockPart := by
  unfold State.sampleCue
  dsimp only
  split
  · unfold State.fireCue
    split
    · rfl
    · unfold State.captureCue
      dsimp only
      split <;> rfl
    · exact (State.FireFrame.fireOnLanes _ _ _).clockPart
  · rfl

theorem State.clockPart_examineLine (line : Nat) :
    (s.examineLine line).clockPart = s.clockPart := by
  unfold State.examineLine
  split <;> rfl

theorem State.clockPart_handLine (line : Nat) (order : List ReadTok) :
    (s.handLine line order).clockPart = s.clockPart := by
  unfold State.handLine
  refine List.foldlRecOn (motive := fun r : State × ReadWork => r.1.clockPart = s.clockPart) _ _ rfl
    fun r hr t _ => ?_
  cases t with
  | cue n =>
    simp only [State.readTok]
    split
    · rw [State.clockPart_sampleCue, hr]
    · exact hr
  | report =>
    simp only [State.readTok]
    split
    · rw [State.clockPart_examineLine, hr]
    · exact hr

/-! ### The kill latch, the loader and RELOAD -/

theorem State.clockPart_killFall : s.killFall.clockPart = s.clockPart := by
  unfold State.killFall
  split <;> rfl

/-- R145, R166: what the straps give is not the field rate. -/
theorem State.clockPart_setStraps (pins : Pins) (device : DeviceState) (loader : Loader) (anchor : Word)
    (flow : FlowMode) (stall : Nat) :
    ({ s with
      pins := pins, device := device, loader := loader
      conf := { s.conf with anchor := anchor, flow := flow, stall := stall } } : State).clockPart =
      s.clockPart := rfl

theorem State.clockPart_releaseReset (straps : Straps) (killN : Bool) :
    (s.releaseReset straps killN).clockPart = s.clockPart := by
  have latch : ∀ t : State, t.setLatch.clockPart = t.clockPart := fun _ => rfl
  unfold State.releaseReset
  dsimp only
  split
  · exact s.clockPart_setStraps _ _ _ _ _ _
  · exact (latch _).trans (s.clockPart_setStraps _ _ _ _ _ _)

theorem State.clockPart_endBus : s.endBus.clockPart = s.clockPart := by
  unfold State.endBus
  dsimp only
  split <;> rfl

theorem State.clockPart_completeReload (r : ResultCode) :
    (s.completeReload r).clockPart = s.clockPart := by
  unfold State.completeReload
  split
  · exact State.clockPart_handOver _ _
  · rfl

/-- R150, R170: the entry to LOADING leaves the time of day, acc and the rate. -/
theorem State.clockPart_enterLoading : s.enterLoading.clockPart = s.clockPart := by
  unfold State.enterLoading
  dsimp only
  rw [State.releaseUnmerged_eq rfl]
  rfl

theorem State.clockPart_runReload : s.runReload.clockPart = s.clockPart := by
  rcases s.runReload_cases with e | ⟨_, ⟨x, e⟩ | e | ⟨q, e⟩⟩ <;> rw [e]
  · exact State.clockPart_complete _ _ _
  · exact State.clockPart_enterLoading _

theorem State.clockPart_abortNext : s.abortNext.clockPart = s.clockPart := by
  unfold State.abortNext
  split
  · dsimp only
    split
    · rw [State.clockPart_enterLoading]
      exact State.clockPart_handOver _ _
    · exact State.clockPart_handOver _ _
  · rfl

/-! ### The effects of commands -/

theorem State.clockPart_runIf {isMine : Nat → Bool} {eff : Effect}
    (heff : ∀ c, (eff c s.quiet).1.clockPart = s.clockPart) :
    (s.runIf isMine eff).clockPart = s.clockPart :=
  State.runIf_induct (P := fun t => t.clockPart = s.clockPart) rfl
    (fun t e r h => (t.clockPart_complete e r).trans h) fun e _ _ => heff e.command

theorem clockPart_orBadArg {α : Type} {a : Option α} {f : α → State × ResultCode}
    (hf : ∀ x, (f x).1.clockPart = s.clockPart) : (orBadArg a s f).1.clockPart = s.clockPart :=
  orBadArg_induct (P := fun t => t.clockPart = s.clockPart) rfl fun x _ => hf x

theorem State.clockPart_ite {t u : State} {p : Prop} [Decidable p] (ht : t.clockPart = s.clockPart)
    (hu : u.clockPart = s.clockPart) : (if p then t else u).clockPart = s.clockPart := by
  split
  · exact ht
  · exact hu

/-- R139: RESTORE changes lanes and the latch alone. -/
theorem clockPart_restoreEffect (c : Command) : (restoreEffect c s).1.clockPart = s.clockPart :=
  clockPart_orBadArg s fun b => by
    split
    · rfl
    · split
      · rfl
      · exact List.foldlRecOn (motive := fun t : State => t.clockPart = s.clockPart) _ _ rfl
          fun _ h _ _ => h

end

end Sys2Proof.Machine

namespace Sys2Proof

/-- The commands whose events reach the clock or the field rate: CLOCK_SET, a field start, a second
tick, power-on reset and the ends of a load. -/
def Instr.movesClock : Instr → Bool
  | .clockSet | .fieldStart _ _ | .secondTick | .powerOnReset | .imageByteReceived _ _ | .noDevice _
  | .busTimeout _ => true
  | _ => false

end Sys2Proof

namespace Sys2Proof.Machine

/-- Every other command leaves the clock and the field rate. -/
theorem exec_clockPart {i : Instr} {s t : State} (hi : i.movesClock = false) (hx : exec i s = .next t) :
    t.clockPart = s.clockPart := by
  have run : ∀ {isMine : Nat → Bool} {eff : Effect},
      (∀ c, (eff c s.quiet).1.clockPart = s.quiet.clockPart) →
        (s.runIf isMine eff).clockPart = s.clockPart := fun heff => s.clockPart_runIf heff
  have arg : ∀ {α : Type} {a : Option α} {f : α → State × ResultCode},
      (∀ x, (f x).1.clockPart = s.quiet.clockPart) →
        (orBadArg a s.quiet f).1.clockPart = s.quiet.clockPart := fun hf => clockPart_orBadArg _ hf
  have ite : ∀ {p : Prop} [Decidable p] {u v : State}, u.clockPart = s.clockPart →
      v.clockPart = s.clockPart → (if p then u else v).clockPart = s.clockPart :=
    fun hu hv => s.clockPart_ite hu hv
  cases i
  case laneForm =>
    exact next_eq hx ▸ run fun c => arg fun n => arg fun f => by
      dsimp only
      split
      · rfl
      · split <;> rfl
  case laneMotion => exact next_eq hx ▸ run fun c => arg fun n => rfl
  case take => exact next_eq hx ▸ run fun c => clockPart_maskEffect _ _ c
  case start => exact next_eq hx ▸ run fun c => clockPart_maskEffect _ _ c
  case stop => exact next_eq hx ▸ run fun c => arg fun a => clockPart_maskEffect _ a c
  case hold => exact next_eq hx ▸ run fun c => clockPart_maskEffect _ _ c
  case resume => exact next_eq hx ▸ run fun c => clockPart_maskEffect _ _ c
  case restore => exact next_eq hx ▸ run fun c => clockPart_restoreEffect _ c
  case enqueue =>
    exact next_eq hx ▸ run fun c => arg fun n => arg fun next => arg fun i => by
      split
      · rfl
      · split
        · rfl
        · split <;> rfl
  case dequeue => exact next_eq hx ▸ run fun c => arg fun n => arg fun i => by split <;> rfl
  case clear => exact next_eq hx ▸ run fun c => arg fun n => by split <;> rfl
  case itemDefine => exact next_eq hx ▸ run fun c => arg fun i => arg fun it => by split <;> rfl
  case itemDrop =>
    exact next_eq hx ▸ run fun c => arg fun i => by
      split
      · rfl
      · split <;> rfl
  case textSegment => exact next_eq hx ▸ run fun c => arg fun a => by split <;> rfl
  case styleColors => exact next_eq hx ▸ run fun c => arg fun k => rfl
  case styleForm =>
    exact next_eq hx ▸ run fun c => arg fun k => arg fun fl => arg fun w => by split <;> rfl
  case scheduleSet => exact next_eq hx ▸ run fun c => arg fun a => rfl
  case scheduleClear => exact next_eq hx ▸ run fun c => rfl
  case cueSet => exact next_eq hx ▸ run fun c => arg fun a => rfl
  case cueoutLevel => exact next_eq hx ▸ run fun c => arg fun ops => by split <;> rfl
  case eventMask => exact next_eq hx ▸ run fun c => arg fun fill => rfl
  case eventAck => exact next_eq hx ▸ run fun c => rfl
  case reinit => exact next_eq hx ▸ run fun c => rfl
  case reload => exact next_eq hx ▸ s.quiet.clockPart_runReload
  case badCommand => exact next_eq hx ▸ run fun c => rfl
  case systemWrite w => exact next_eq hx ▸ ite ((keepsClockPart_ports s).takeWaiting _ rfl) rfl
  case systemRead r => exact next_eq hx ▸ ite ((keepsClockPart_ports s).takeWaiting _ rfl) rfl
  case heldWriteRelease => exact next_eq hx ▸ ite ((keepsClockPart_ports s).releaseHeld rfl) rfl
  case stallLimitExpiry => exact next_eq hx ▸ ite rfl ((keepsClockPart_ports s).expireHeld rfl)
  case abortAnswer => exact next_eq hx ▸ ite s.quiet.clockPart_abortNext rfl
  case resultWrite scanWaits sysWaits =>
    refine next_eq hx ▸ ite ?_ rfl
    unfold State.writeResult
    split
    · rfl
    · exact State.clockPart_emitWrite _ _ _ _
  case writeBackDrain reply => exact next_eq hx ▸ ite rfl rfl
  case reportWrite scanWaits sysWaits more =>
    refine next_eq hx ▸ ite ?_ rfl
    unfold State.writeReport
    split
    · rfl
    · exact State.clockPart_emitWrite _ _ _ _
  case scanRead addr burst levels order =>
    refine next_eq hx ▸ ite ?_ rfl
    dsimp only
    split
    · exact ite (State.clockPart_handLine _ _ _) rfl
    · rfl
  case scanBeat index words reply =>
    refine next_eq hx ▸ ite ?_ rfl
    cases reply <;> rfl
  case scanWrite addr => exact next_eq hx ▸ ite rfl rfl
  case passLimitReached n => exact next_eq hx ▸ ite (State.clockPart_raiseIf _ _ _) rfl
  case pageEnd n =>
    exact next_eq hx ▸ ite ((State.clockPart_laneStep _ _ _).trans
      ((State.clockPart_laneStep _ _ _).trans (State.clockPart_laneStep _ _ _))) rfl
  case holdExpiry n k => exact next_eq hx ▸ ite rfl rfl
  case fadeOutEnd n => exact next_eq hx ▸ ite rfl rfl
  case killLatchSet => exact next_eq hx ▸ ite (ite (State.clockPart_killFall _) rfl) rfl
  case resetRelease straps killN => exact next_eq hx ▸ ite rfl (State.clockPart_releaseReset _ _ _)
  case busFreeStart => exact next_eq hx ▸ ite rfl rfl
  case arbitrationLost => exact next_eq hx ▸ ite rfl rfl
  case killNRise => exact next_eq hx ▸ rfl
  all_goals cases hi

end Sys2Proof.Machine

/-! ## The law of the station clock (R123, R124, R125, R168) -/

namespace Sys2Proof.Machine

/-! ### A field rate that an image gives (R168) -/

/-- R123: the ranges of a field rate. -/
abbrev FieldRate.Sound (r : FieldRate) : Prop := 1 ≤ r.d ∧ r.d ≤ r.n

/-- A field that has been received whole and is not out of its range is its least value. -/
theorem fieldLeast_of_whole {bs : List Byte} {off n lo : Nat} (h : off + n ≤ bs.length)
    (hle : fieldLeast bs off n lo < 256 ^ n) : fieldLeast bs off n lo = fieldSoFar bs off n := by
  have hlen : ((bs.drop off).take n).length = n := by
    rw [List.length_take, List.length_drop]
    omega
  have hmod := (fieldLeast_spec bs off n lo).2.1
  rwa [hlen, Nat.mod_eq_of_lt hle] at hmod

/-- R168: a CONFIG that passes its checks gives a field rate within its ranges. -/
theorem scanConfig_rate {bs : List Byte} {c : ImageConfig} (h : scanConfig bs = .done c) :
    c.rate.Sound := by
  unfold scanConfig at h
  split_ifs at h with hbad hshort
  cases h
  have hgood := mt (configBad_iff bs).mpr hbad
  simp only [not_or, Nat.not_lt] at hgood
  obtain ⟨_, _, _, _, _, _, _, _, _, _, hn, hd, _⟩ := hgood
  have hd0 := (fieldLeast_spec bs 26 2 1).1
  have hnv : fieldLeast bs 24 2 1 = fieldSoFar bs 24 2 := fieldLeast_of_whole (by omega) (by omega)
  have hdv : fieldLeast bs 26 2 1 = fieldSoFar bs 26 2 := fieldLeast_of_whole (by omega) (by omega)
  rw [hdv] at hd0 hd
  rw [hnv] at hd
  exact ⟨hd0, hd⟩

/-- R168: the CONFIG read so far, where there is one, gives a field rate within its ranges. -/
abbrev Image.RateSound (i : Image) : Prop := ∀ c, i.config = some c → c.rate.Sound

theorem scanBody_rate {i j : Image} {kind : SectionKind} {len : Nat} {bs : List Byte} (hi : i.RateSound)
    (h : scanBody i kind len bs = .done j) : j.RateSound := by
  cases kind with
  | config =>
    rw [scanBody_config] at h
    cases hc : scanConfig bs with
    | fail r => rw [hc] at h; cases h
    | more => rw [hc] at h; cases h
    | done c =>
      rw [hc] at h
      cases h
      intro c' e
      cases e
      exact scanConfig_rate hc
  | style =>
    rw [scanBody_style] at h
    cases hs : scanStyles (len / 48) [] bs with
    | fail r => rw [hs] at h; cases h
    | more => rw [hs] at h; cases h
    | done ss => rw [hs] at h; cases h; exact hi
  | font n =>
    rw [scanBody_font] at h
    cases hf : scanFont len bs with
    | fail r => rw [hf] at h; cases h
    | more => rw [hf] at h; cases h
    | done f =>
      rw [hf, Scan.bind] at h
      split_ifs at h
      cases h
      exact hi
  | finish => cases h; exact hi

theorem scanSections_rate (total : Nat) : ∀ (fuel off : Nat) (i j : Image) (bs : List Byte),
    i.RateSound → scanSections total fuel off i bs = .done j → j.RateSound
  | 0, _, _, _, _, _, h => by cases h
  | fuel + 1, off, i, j, bs, hi, h => by
    by_cases hbs : bs = []
    · rw [hbs] at h
      cases h
    · cases hkind : sectionKind i (fieldSoFar bs 0 1) with
      | none =>
        rw [scanSections_unknown hbs hkind] at h
        cases h
      | some kind =>
        rw [scanSections_known hbs hkind] at h
        split_ifs at h with hover hmay hshort hend
        · subst hend
          cases h
          exact hi
        · cases hbody : scanBody i kind (fieldSoFar bs 2 2) ((bs.drop 4).take (fieldSoFar bs 2 2)) with
          | fail r => rw [hbody] at h; cases h
          | more => rw [hbody] at h; cases h
          | done i' =>
            rw [hbody] at h
            exact scanSections_rate total fuel _ i' j _ (scanBody_rate hi hbody) h

/-- R168: a sound image gives a field rate within its ranges. -/
theorem scanImage_rate {bs : List Byte} {i : Image} (h : scanImage bs = .done i) : i.RateSound := by
  unfold scanImage at h
  dsimp only at h
  split_ifs at h
  exact scanSections_rate _ _ _ _ _ _ (fun _ e => by cases e) h

/-! ### The law under changes of the clock -/

theorem State.ClockLaw.of_part {s t : State} (h : s.ClockLaw) (k : t.clockPart = s.clockPart) :
    t.ClockLaw := by
  obtain ⟨hclock, hrate⟩ := Prod.ext_iff.mp k
  rw [State.ClockLaw, show t.clock = s.clock from hclock, show t.conf.rate = s.conf.rate from hrate]
  exact h

/-- R124: an accumulation keeps acc below N, since D is at most N, and a tick the BCD time. -/
theorem State.ClockLaw.accumulate {s : State} (h : s.ClockLaw) : s.accumulate.ClockLaw := by
  obtain ⟨htime, hrate⟩ := h
  cases hr : s.conf.rate with
  | none =>
    have hkeep : s.accumulate = s := by unfold State.accumulate; rw [hr]
    rw [hkeep]
    exact ⟨htime, hrate⟩
  | some r =>
    obtain ⟨hd, hdn, hacc⟩ := hrate r hr
    have only : ∀ acc, acc < r.n → ∀ x ∈ s.conf.rate, 1 ≤ x.d ∧ x.d ≤ x.n ∧ acc < x.n :=
      fun acc ha x hx => by
        obtain rfl : r = x := Option.some.inj (hr.symm.trans hx)
        exact ⟨hd, hdn, ha⟩
    by_cases hdue : r.n ≤ s.clock.acc + r.d
    · rw [State.accumulate_of_due hr hdue]
      obtain ⟨hclock, hconf⟩ := State.fireSchedule_clock
        { s with clock := { time := s.clock.time.succ, acc := s.clock.acc + r.d - r.n } }
      rw [State.ClockLaw, hclock, hconf]
      exact ⟨(TimeOfDay.valid_iff _).mpr ((TimeOfDay.valid_iff _).mp htime).succ.1,
        only (s.clock.acc + r.d - r.n) (by omega)⟩
    · rw [State.accumulate_of_below hr (Nat.lt_of_not_le hdue)]
      exact ⟨htime, only _ (Nat.lt_of_not_le hdue)⟩

/-- R8, R124: the shares of a field start, in every order. -/
theorem State.ClockLaw.fieldShares {s : State} (h : s.ClockLaw) (order : List FieldTok) :
    (s.fieldShares order).ClockLaw := by
  obtain ⟨_, _, hlaw⟩ := State.fieldShares_induct (P := fun r => r.1.ClockLaw) order h
    fun r t _ hr => by
      cases t with
      | styles => exact hr.of_part (State.clockPart_transferStyles _)
      | slot k => exact hr.of_part (State.clockPart_checkSlot _ k)
      | lane n => exact hr.of_part (State.clockPart_laneStep _ n _)
      | clock => exact hr.accumulate
  exact hlaw

/-- R125: CLOCK_SET sets acc to 0, which is below every N that a rate can have. -/
theorem State.ClockLaw.clockSet {s : State} (h : s.ClockLaw) (c : Command) :
    (clockSetEffect c s).1.ClockLaw := by
  have ⟨_, hrate⟩ := h
  refine orBadArg_induct h fun time htime => ?_
  unfold timeArg at htime
  split_ifs at htime with hvalid
  cases htime
  refine ⟨hvalid, fun r hr => ?_⟩
  obtain ⟨hd, hdn, _⟩ := hrate r hr
  exact ⟨hd, hdn, by simp only; omega⟩

/-! ### Loads (R168, R169) -/

theorem State.ClockLaw.failLoad {s : State} (h : s.ClockLaw) (r : LoadReason) :
    (s.failLoad r).ClockLaw := by
  have hpart : (s.failLoad r).clockPart = (s.clock, none) :=
    (State.clockPart_completeReload _ _).trans (congrArg (·.1, none) s.clockPart_endBus)
  obtain ⟨hclock, hrate⟩ := Prod.ext_iff.mp hpart
  rw [State.ClockLaw, show (s.failLoad r).clock = s.clock from hclock,
    show (s.failLoad r).conf.rate = none from hrate]
  exact ⟨h.1, fun _ e => nomatch e⟩

/-- R169: a load sets acc to 0 and installs the rate of its CONFIG. -/
theorem State.ClockLaw.loadDone {s : State} (h : s.ClockLaw) (i : Image) {c : ImageConfig}
    (hc : c.rate.Sound) : (s.loadDone i c).ClockLaw := by
  have hpart : (s.loadDone i c).clockPart = ({ time := s.clock.time, acc := 0 }, some c.rate) :=
    State.clockPart_completeReload _ _
  obtain ⟨hclock, hrate⟩ := Prod.ext_iff.mp hpart
  rw [State.ClockLaw, show (s.loadDone i c).clock = _ from hclock,
    show (s.loadDone i c).conf.rate = _ from hrate]
  refine ⟨h.1, fun r hr => ?_⟩
  cases hr
  obtain ⟨hd, hdn⟩ := hc
  exact ⟨hd, hdn, by simp only; omega⟩

theorem State.ClockLaw.receiveByte {s : State} (h : s.ClockLaw) (b : Byte) :
    (s.receiveByte b).ClockLaw := by
  unfold State.receiveByte
  generalize hu : { s with loader :=
    { s.loader with bus := .reading, staging := s.loader.staging ++ [b] } } = u
  have h' : u.ClockLaw := h.of_part (hu ▸ rfl)
  unfold State.afterByte
  split
  · exact h'
  · exact h'.failLoad _
  · rename_i i hdone
    split
    · rename_i c hc
      exact (h'.of_part u.clockPart_endBus).loadDone i (scanImage_rate hdone c hc)
    · exact h'.failLoad _

/-! ### Every step -/

/-- Every command keeps the law. -/
theorem State.ClockLaw.exec {i : Instr} {s t : State} (h : s.ClockLaw) (hx : exec i s = .next t) :
    t.ClockLaw := by
  by_cases hi : i.movesClock = true
  · have quiet : s.quiet.ClockLaw := h
    have ite : ∀ {p : Prop} [Decidable p] {u v : State}, u.ClockLaw → v.ClockLaw →
        (if p then u else v).ClockLaw := fun hu hv => by split; exacts [hu, hv]
    have straps : ∀ x, (s.quiet.readStraps x).ClockLaw := fun x => h.of_part rfl
    have reset : s.powerOn.ClockLaw :=
      ⟨show TimeOfDay.midnight.valid = true by decide, fun _ e => by cases e⟩
    cases i
    case clockSet =>
      exact next_eq hx ▸ State.runIf_induct quiet
        (fun u e r hu => hu.of_part (State.clockPart_complete u e r)) fun e _ _ => quiet.clockSet _
    case fieldStart parity order =>
      have head : (s.quiet.fieldHead parity).ClockLaw := h.of_part rfl
      exact next_eq hx ▸ ite (ite (head.fieldShares order) head) quiet
    case secondTick => exact next_eq hx ▸ ite quiet.accumulate quiet
    case powerOnReset => exact next_eq hx ▸ reset
    case imageByteReceived b x => exact next_eq hx ▸ ite ((straps x).receiveByte b) quiet
    case noDevice x => exact next_eq hx ▸ ite ((straps x).failLoad _) quiet
    case busTimeout x => exact next_eq hx ▸ ite quiet ((straps x).failLoad _)
    all_goals cases hi
  · exact h.of_part (exec_clockPart (Bool.eq_false_iff.mpr hi) hx)

/-- Settles O60: the time of day is set by a check, by its successor and by reset, and acc and the field
rate by CLOCK_SET, by an accumulation and by the ends of a load. -/
theorem clockLawKept : Obligations.ClockLawKept := by
  intro s t h hx
  cases hp : s.pending with
  | nil =>
    rw [step_of_idle hp] at hx
    exact next_eq hx ▸ h
  | cons c rest =>
    rw [step_of_pending hp] at hx
    exact State.ClockLaw.exec (s := { s with pending := rest }) (h.of_part rfl) hx

end Sys2Proof.Machine

/-! ## The commands of the clock, the schedule and the cue unit (R125, R127, R135, R136, R139, R172) -/

namespace Sys2Proof.Machine

/-! ### Fields of a command -/

theorem bits_eq_zero_iff (w : Word) (lo n : Nat) : bits w lo n = 0 ↔ w.extractLsb' lo n = 0 := by
  rw [bits, ← BitVec.toNat_inj]
  rfl

/-- A byte of a word is the byte of its number. -/
theorem ofNat_bits (w : Word) (lo : Nat) : BitVec.ofNat 8 (bits w lo 8) = w.extractLsb' lo 8 := by
  rw [bits, BitVec.ofNat_toNat, BitVec.setWidth_eq]

theorem timeArg_eq (w : Word) :
    timeArg w = if (timeOfWord w).valid = false then none else some (timeOfWord w) := by
  unfold timeArg
  cases (timeOfWord w).valid <;> rfl

theorem daily?_eq (n : Nat) : daily? n = if 1 < n then none else some (n == 1) := by
  match n with
  | 0 | 1 => rfl
  | k + 2 => exact (if_pos (by omega)).symm

/-- 12.2: the actions of the schedule by their numbers. -/
abbrev schedActionAt (n : Nat) : SchedAction :=
  [SchedAction.lane .start, .lane .stopDrain, .lane .stopFade, .lane .hold, .lane .resume, .lane .take,
    .setStyle].getD n .setStyle

theorem schedAction?_eq (n : Nat) :
    schedAction? n = if 6 < n then none else some (schedActionAt n) := by
  match n with
  | 0 | 1 | 2 | 3 | 4 | 5 | 6 => rfl
  | k + 7 => exact (if_pos (by omega)).symm

theorem schedActionAt_eq_setStyle_iff {n : Nat} (h : n ≤ 6) : schedActionAt n = .setStyle ↔ n = 6 := by
  match n with
  | 0 | 1 | 2 | 3 | 4 | 5 | 6 => simp [schedActionAt]

theorem edge?_eq (n : Nat) :
    edge? n = if 2 < n then none else some ([Edge.rise, .fall, .both].getD n .rise) := by
  match n with
  | 0 | 1 | 2 => rfl
  | k + 3 => exact (if_pos (by omega)).symm

/-- 12.2: the actions of a cue input by their numbers. -/
abbrev cueActionAt (n : Nat) : CueAction :=
  [CueAction.none, .capture, .lane .start, .lane .stopDrain, .lane .stopFade, .lane .hold,
    .lane .resume, .lane .take].getD n .none

theorem cueAction?_eq (n : Nat) : cueAction? n = if 7 < n then none else some (cueActionAt n) := by
  match n with
  | 0 | 1 | 2 | 3 | 4 | 5 | 6 | 7 => rfl
  | k + 8 => exact (if_pos (by omega)).symm

theorem cueActionAt_eq_none_iff {n : Nat} (h : n ≤ 7) : cueActionAt n = .none ↔ n = 0 := by
  match n with
  | 0 | 1 | 2 | 3 | 4 | 5 | 6 | 7 => simp [cueActionAt]

/-! ### CLOCK_SET (R125) -/

/-- R125: the ranges of a carried time, by its bytes. -/
theorem timeOfWord_valid_iff (w : Word) :
    let digits := fun b : Nat => b / 16 ≤ 9 ∧ b % 16 ≤ 9
    let value := fun b : Nat => 10 * (b / 16) + b % 16
    (timeOfWord w).valid = true ↔
      digits (bits w 0 8) ∧ digits (bits w 8 8) ∧ digits (bits w 16 8) ∧
        value (bits w 0 8) ≤ 59 ∧ value (bits w 8 8) ≤ 59 ∧ value (bits w 16 8) ≤ 23 := by
  intro digits value
  have hdigits : ∀ lo, bcdDigits (w.extractLsb' lo 8) = true ↔ digits (bits w lo 8) := fun lo =>
    (bcdDigits_iff _).trans (and_congr Nat.lt_succ_iff Nat.lt_succ_iff)
  rw [TimeOfDay.valid_iff, ← hdigits, ← hdigits, ← hdigits]
  exact ⟨fun ⟨hh, hm, hs, hour, min, sec⟩ => ⟨hs, hm, hh, sec, min, hour⟩,
    fun ⟨hs, hm, hh, sec, min, hour⟩ => ⟨hh, hm, hs, hour, min, sec⟩⟩

theorem clockSetEffect_eq (c : Command) (s : State) :
    clockSetEffect c s =
      if (timeOfWord c.w0).valid = true then
        ({ s with clock := { time := timeOfWord c.w0, acc := 0 } }, .ok)
      else (s, .badArg) := by
  unfold clockSetEffect timeArg
  split <;> rfl

/-! ### SCHEDULE_SET and SCHEDULE_CLEAR (R127) -/

/-- R127: an argument of a SCHEDULE_SET is out of its range. -/
abbrev Command.ScheduleBad (c : Command) : Prop :=
  15 < bits c.close 8 8 ∨ (timeOfWord c.w0).valid = false ∨ 1 < bits c.w1 0 8 ∨ 6 < bits c.w1 8 8 ∨
    bits c.w1 16 4 = 0 ∨ (bits c.w1 8 8 = 6 ∧ 31 < bits c.w1 24 8)

/-- R127: the entry that a SCHEDULE_SET gives. -/
abbrev Command.scheduleFields (c : Command) : SchedEntry :=
  { armed := true, time := timeOfWord c.w0, daily := bits c.w1 0 8 == 1
    action := schedActionAt (bits c.w1 8 8), mask := c.w1.extractLsb' 16 4, arg := bits c.w1 24 8 }

theorem Command.scheduleArgs_eq (c : Command) :
    c.scheduleArgs =
      if c.ScheduleBad then none else some (bits c.close 8 8, c.scheduleFields) := by
  rw [Command.scheduleArgs, below_eq (rfl : Config.scheduleCount = 15 + 1), timeArg_eq, daily?_eq,
    schedAction?_eq, bind_ite_none, bind_ite_none, bind_ite_none, bind_ite_none]
  dsimp only
  rw [← ite_or, ← ite_or, ← ite_or, ← ite_or]
  refine if_congr ?_ rfl rfl
  rw [← bits_eq_zero_iff]
  have haction := schedActionAt_eq_setStyle_iff (n := bits c.w1 8 8)
  unfold Command.ScheduleBad
  by_cases h6 : bits c.w1 8 8 ≤ 6
  · rw [haction h6]
    simp only [or_assoc]
    rfl
  · have h6' : 6 < bits c.w1 8 8 := Nat.lt_of_not_le h6
    simp only [h6', true_or, or_true]

theorem scheduleSetEffect_eq (c : Command) (s : State) :
    scheduleSetEffect c s =
      if c.ScheduleBad then (s, .badArg)
      else (s.setSchedEntry (bits c.close 8 8) c.scheduleFields, .ok) := by
  rw [scheduleSetEffect, Command.scheduleArgs_eq, orBadArg_ite]

/-- A store with the records of some numbers taken out reads its default there. -/
theorem Store.get_filter {α : Type} (d : α) (p : Nat → Bool) (k : Nat) : ∀ m : Store α,
    Store.get d (m.filter fun e => p e.1) k = if p k = true then Store.get d m k else d
  | [] => (ite_self d).symm
  | (j, v) :: m => by
    have ih := Store.get_filter d p k m
    by_cases hj : p j = true
    · rw [List.filter_cons_of_pos (p := fun e : Nat × α => p e.1) hj, Store.get, Store.get, ih]
      by_cases hjk : j = k
      · rw [if_pos hjk, if_pos hjk, if_pos (hjk ▸ hj)]
      · rw [if_neg hjk, if_neg hjk]
    · rw [List.filter_cons_of_neg (p := fun e : Nat × α => p e.1) hj, ih, Store.get]
      by_cases hjk : j = k
      · rw [if_neg (hjk ▸ hj), if_neg (hjk ▸ hj)]
      · rw [if_neg hjk]

/-- R127: the selector has a bit for each of the 16 entries. -/
theorem Command.getLsbD_entrySelector (c : Command) (i : Nat) :
    c.entrySelector.getLsbD i = (decide (i < 16) && c.w0.getLsbD i) := by
  simp [Command.entrySelector, BitVec.getLsbD_extractLsb']

/-- Settles O13: the ranges of a carried time, the checks of SCHEDULE_SET, and the selected entries. -/
theorem clockAndScheduleCommands : Obligations.ClockAndScheduleCommands := by
  refine ⟨fun s e h => ?clock, fun s e h => ?set, fun s e h => ?clear⟩
  case clock =>
    intro c digits value sec min hour
    refine congrArg Host.Outcome.next ((State.run_of_executes h _).trans ?_)
    rw [clockSetEffect_eq, complete_ite, ofNat_bits, ofNat_bits, ofNat_bits]
    exact if_congr (timeOfWord_valid_iff c.w0) rfl rfl
  case set =>
    intro c i mode action arg
    refine congrArg Host.Outcome.next ((State.run_of_executes h _).trans ?_)
    rw [scheduleSetEffect_eq, complete_ite]
  case clear =>
    refine ⟨_, congrArg Host.Outcome.next (State.run_of_executes h _), fun i => ?_⟩
    rw [Store.get_filter _ (fun k => !e.command.entrySelector.getLsbD k),
      Command.getLsbD_entrySelector]
    by_cases hsel : i < 16 ∧ e.command.w0.getLsbD i = true
    · obtain ⟨hi, hbit⟩ := hsel
      simp only [hi, hbit, decide_true, Bool.and_self, Bool.not_true, Bool.false_eq_true, if_false,
        and_self, if_true]
      rfl
    · rw [if_neg hsel, if_pos]
      · rfl
      · rw [Bool.not_eq_true', Bool.and_eq_false_iff, decide_eq_false_iff_not, ← Bool.not_eq_true]
        exact not_and_or.mp hsel

/-! ### CUE_SET (R135) -/

/-- R135: a setting of a CUE_SET is outside its set, or it acts on no lane. -/
abbrev Command.CueBad (c : Command) : Prop :=
  1 < bits c.w0 0 8 ∨ 2 < bits c.w0 8 8 ∨ 7 < bits c.w0 16 8 ∨
    (bits c.w0 24 4 = 0 ∧ bits c.w0 16 8 ≠ 0)

/-- R135: the arguments of a CUE_SET for input `n`. -/
abbrev Command.cueFields (c : Command) (n : Fin 4) : CueArgs :=
  { input := n, filter := bits c.w0 0 8 == 1
    edge := [Edge.rise, .fall, .both].getD (bits c.w0 8 8) .rise
    action := cueActionAt (bits c.w0 16 8), mask := c.w0.extractLsb' 24 4 }

theorem Command.cueArgs_eq {c : Command} {n : Fin 4} (h : bits c.close 8 8 = n.val) :
    c.cueArgs = if c.CueBad then none else some (c.cueFields n) := by
  have hn : four? c.short = some n := Command.lane_eq_some h
  rw [Command.cueArgs, hn, Option.bind_some, below_eq (rfl : 2 = 1 + 1), edge?_eq, cueAction?_eq,
    bind_ite_none, bind_ite_none, bind_ite_none]
  dsimp only
  rw [← ite_or, ← ite_or, ← ite_or]
  refine if_congr ?_ rfl rfl
  rw [← bits_eq_zero_iff]
  have haction := cueActionAt_eq_none_iff (n := bits c.w0 16 8)
  unfold Command.CueBad
  by_cases h7 : bits c.w0 16 8 ≤ 7
  · rw [ne_eq, haction h7]
    simp only [or_assoc, ne_eq]
  · have h7' : 7 < bits c.w0 16 8 := Nat.lt_of_not_le h7
    simp only [h7', true_or, or_true]

/-- Settles O14: the four settings of an input, and an input that there is not. -/
theorem cueSetCommand : Obligations.CueSetCommand := by
  refine ⟨fun s e n h hn => ?input, fun s e h hn => ?none⟩
  case input =>
    intro w filter edge action
    refine congrArg Host.Outcome.next ((State.run_of_executes h _).trans ?_)
    rw [cueSetEffect, Command.cueArgs_eq hn, orBadArg_ite, complete_ite]
    rfl
  case none =>
    have hinput : e.command.cueArgs = none := by
      rw [Command.cueArgs, show four? e.command.short = none from Command.lane_eq_none hn]
      rfl
    refine congrArg Host.Outcome.next ((State.run_of_executes h _).trans ?_)
    rw [cueSetEffect, hinput, orBadArg]

/-! ### CUEOUT_LEVEL (R136) -/

/-- R136: an output driven by the operation of a number. -/
abbrev driven (op : Nat) (level : Bool) : Bool :=
  if op = 0 then level else if op = 1 then false else if op = 2 then true else !level

/-- R136: the operations are four, each by what it makes of a level. -/
theorem levelOp?_cases (n : Nat) :
    (3 < n ∧ levelOp? n = none) ∨
      (n ≤ 3 ∧ ∃ o, levelOp? n = some o ∧ ∀ level, o.apply level = driven n level) := by
  match n with
  | 0 | 1 | 2 | 3 => exact .inr ⟨by omega, _, rfl, fun _ => rfl⟩
  | k + 4 => exact .inl ⟨by omega, rfl⟩

theorem cueoutLevelEffect_eq (c : Command) (s : State) :
    cueoutLevelEffect c s =
      if 3 < bits c.w0 0 8 ∨ 3 < bits c.w0 8 8 then (s, .badArg)
      else if s.cue.latch = true then (s, .killed)
      else
        ({ s with cue := { s.cue with
            out0 := driven (bits c.w0 0 8) s.cue.out0
            out1 := driven (bits c.w0 8 8) s.cue.out1 } }, .ok) := by
  unfold cueoutLevelEffect Command.levelOps
  rcases levelOp?_cases (bits c.w0 0 8) with ⟨ha, ea⟩ | ⟨ha, a, ea, hda⟩
  · rw [ea, if_pos (.inl ha)]
    rfl
  · rcases levelOp?_cases (bits c.w0 8 8) with ⟨hb, eb⟩ | ⟨hb, b, eb, hdb⟩
    · rw [ea, eb, if_pos (.inr hb)]
      rfl
    · rw [ea, eb, if_neg (by omega), ← hda, ← hdb]
      rfl

/-! ### RESTORE (R139) -/

/-- R139: the targets of RESTORE. -/
theorem Command.restoreTarget_eq (c : Command) :
    c.restoreTarget = if 1 < bits c.w0 0 8 then none else some (bits c.w0 0 8 == 1) :=
  daily?_eq _

/-- R139: RESTORE lane by lane, where `back` says what becomes of each. -/
theorem State.restoreLanes_eq (s : State) {b : Bool} {mask : BitVec 4} {back : Nat → Lane → Lane}
    (hback : ∀ (n : Fin 4) l, (if mask.getLsbD n.val = true then l.restore b else l) = back n.val l) :
    s.restoreLanes b (maskLanes mask) =
      { s with lanes :=
        ⟨back 0 s.lanes.e0, back 1 s.lanes.e1, back 2 s.lanes.e2, back 3 s.lanes.e3⟩ } := by
  have hone : ∀ (t : State) (n : Fin 4),
      (if mask.getLsbD n.val = true then t.setLane n ((t.lane n).restore b) else t) =
        t.setLane n (back n.val (t.lane n)) := fun t n => by
    rw [← hback]
    split
    · rfl
    · exact (t.setLane_lane n).symm
  rw [State.restoreLanes, maskLanes, List.foldl_filter]
  simp only [hone]
  rfl

theorem restoreEffect_eq (c : Command) (s : State) :
    restoreEffect c s =
      if bits c.close 8 4 = 0 ∨ 1 < bits c.w0 0 8 then (s, .badArg)
      else if s.pins.killN = false then (s, .lineActive)
      else
        (State.restoreLanes { s with cue := { s.cue with latch := false } } (bits c.w0 0 8 == 1)
          (maskLanes c.laneMask), .ok) := by
  rw [restoreEffect, Command.restoreTarget_eq, orBadArg_ite, ← ite_or]
  refine if_congr ?_ rfl (if_congr (Bool.not_eq_true' _).to_iff rfl rfl)
  rw [Command.laneMask_eq_zero_iff, or_comm]

/-- R139, R175: a lane that RESTORE names. -/
theorem Lane.restore_eq (l : Lane) (target : Nat) :
    l.restore (target == 1) =
      if l.state = .killed then
        if target = 1 then { l with state := .running, fade := 0, motionOn := true }
        else { l with state := .held, resume := .running, fade := 0, motionOn := true }
      else l := by
  unfold Lane.restore
  by_cases ht : target = 1
  · simp only [ht, beq_self_eq_true, if_true]
  · simp only [ht, beq_eq_false_iff_ne.mpr ht, Bool.false_eq_true, if_false]

/-- Settles O15: the operations of CUEOUT_LEVEL, and RESTORE lane by lane. -/
theorem cueoutAndRestoreCommands : Obligations.CueoutAndRestoreCommands := by
  refine ⟨fun s e h => ?level, fun s e h => ?restore⟩
  case level =>
    intro a b drive
    refine congrArg Host.Outcome.next ((State.run_of_executes h _).trans ?_)
    rw [cueoutLevelEffect_eq, complete_ite, complete_ite]
    rfl
  case restore =>
    intro target back
    refine congrArg Host.Outcome.next ((State.run_of_executes h _).trans ?_)
    have hback : ∀ (n : Fin 4) (l : Lane),
        (if e.command.laneMask.getLsbD n.val = true then l.restore (target == 1) else l) =
          back n.val l := fun n l => by
      simp only [back]
      rw [Command.getLsbD_laneMask, Lane.restore_eq, ite_and]
    rw [restoreEffect_eq, complete_ite, complete_ite, State.restoreLanes_eq _ hback]
    rfl

end Sys2Proof.Machine

/-! ## The release of reset, and the loader's events on the bus (R137, R165, R166, R167) -/

namespace Sys2Proof.Machine

/-- R18: the setting of the kill latch reaches no lane that is OFF. -/
theorem State.killLanes_of_off {s : State} (h : ∀ n, (s.lane n).state = .off) : s.killLanes = s := by
  have hkill : ∀ n, (s.lane n).kill = s.lane n := fun n => by
    unfold Lane.kill
    rw [h n]
  have hlanes : (⟨s.lanes.e0.kill, s.lanes.e1.kill, s.lanes.e2.kill, s.lanes.e3.kill⟩ : Four Lane) =
      s.lanes := Four.ext_get fun n => match n with
    | 0 => hkill 0
    | 1 => hkill 1
    | 2 => hkill 2
    | 3 => hkill 3
  rw [State.killLanes, hlanes]

/-- R136, R137: with every lane OFF the kill latch brings the cue outputs low and sets BREAK_IN. -/
theorem State.setLatch_of_off {s : State} (h : ∀ n, (s.lane n).state = .off) :
    s.setLatch =
      { s with
        cue := { s.cue with latch := true, out0 := false, out1 := false }
        rep := { s.rep with events := s.rep.events ||| 0x400 } } := by
  rw [State.setLatch, State.killLanes_of_off h]
  rfl

/-- Settles O49: RESET_N rises with KILL_N high or low, and the loader by where it stands on the bus. -/
theorem resetAndBusEvents : Obligations.ResetAndBusEvents := by
  refine ⟨fun s straps killN hreset hoff => ?release, fun s => ⟨fun hbus => ?start, fun hbus => ?lost⟩⟩
  case release =>
    have hrun : exec (.resetRelease straps killN) s = .next (s.quiet.releaseReset straps killN) :=
      congrArg Host.Outcome.next (if_neg (by rw [hreset]; exact Bool.false_ne_true))
    rw [hrun, State.releaseReset, ← strapAnchor_eq]
    cases killN with
    | true => rfl
    | false =>
      exact congrArg Host.Outcome.next (State.setLatch_of_off (by exact hoff))
  case start => exact congrArg Host.Outcome.next (if_pos hbus)
  case lost => exact congrArg Host.Outcome.next (if_pos ((BusPhase.holds_iff _).mpr hbus))

end Sys2Proof.Machine

/-! ## The slots of the intake queue, and the laws of the queues and of the stores -/

namespace Sys2Proof.Machine

/-! ### Slots and the commands queued (R140, R143, R148, R149) -/

/-- R140, R143: the command slots and the queue agree: the queued commands are of different slots of the
window, and theirs alone are IN_FLIGHT. -/
structure SlotsMatch (slots : Store CommandSlot) (queue : List IntakeEntry) : Prop where
  wf     : Store.wf CommandSlot.initial slots = true
  nodup  : (queue.map fun e => e.slot).Nodup
  bound  : ∀ n ∈ queue.map fun e => e.slot, n < 64
  flight : ∀ n : Fin 64, (Store.get CommandSlot.initial slots n.val).inFlight = true ↔
    n.val ∈ queue.map fun e => e.slot

section
variable {slots : Store CommandSlot} {queue : List IntakeEntry}

/-- R141: a change of a slot's assembly. -/
theorem SlotsMatch.put (h : SlotsMatch slots queue) {n : Nat} {c : CommandSlot}
    (hc : c.inFlight = (Store.get CommandSlot.initial slots n).inFlight) :
    SlotsMatch (Store.put CommandSlot.initial slots n c) queue where
  wf := Store.put_wf h.wf
  nodup := h.nodup
  bound := h.bound
  flight := fun m => by
    rw [Store.get_put h.wf, ← h.flight m]
    split
    · rename_i hm
      rw [hc, hm]
    · rfl

/-- R143: a command is queued, and its slot becomes IN_FLIGHT. -/
theorem SlotsMatch.append (h : SlotsMatch slots queue) {n : Nat} (hn : n < 64) (c : Command)
    {x : CommandSlot} (hfree : (Store.get CommandSlot.initial slots n).inFlight = false) :
    SlotsMatch (Store.put CommandSlot.initial slots n { x with inFlight := true })
      (queue ++ [{ slot := n, command := c }]) := by
  have hnew : n ∉ queue.map fun e => e.slot := fun hmem => by
    rw [(h.flight ⟨n, hn⟩).mpr hmem] at hfree
    cases hfree
  refine ⟨Store.put_wf h.wf, ?_, ?_, fun m => ?_⟩
  · rw [List.map_append, List.nodup_append_comm]
    exact List.nodup_cons.mpr ⟨hnew, h.nodup⟩
  · rw [List.map_append, List.forall_mem_append]
    exact ⟨h.bound, List.forall_mem_singleton.mpr hn⟩
  · rw [Store.get_put h.wf, List.map_append, List.mem_append, ← h.flight m]
    by_cases hm : m.val = n <;> simp [hm]

/-- R149, R150: a command leaves the queue, and its slot becomes FREE. -/
theorem SlotsMatch.leave {ahead behind : List IntakeEntry} {e : IntakeEntry}
    (h : SlotsMatch slots (ahead ++ e :: behind)) {x : CommandSlot} :
    SlotsMatch (Store.put CommandSlot.initial slots e.slot { x with inFlight := false })
      (ahead ++ behind) := by
  obtain ⟨hwf, hnodup, hbound, hflight⟩ := h
  have hperm : ((ahead ++ e :: behind).map fun e => e.slot).Perm
      (e.slot :: (ahead ++ behind).map fun e => e.slot) :=
    List.perm_middle.map fun e : IntakeEntry => e.slot
  obtain ⟨hgone, hrest⟩ := List.nodup_cons.mp (hperm.nodup_iff.mp hnodup)
  refine ⟨Store.put_wf hwf, hrest, fun n hn => hbound n (hperm.mem_iff.mpr (.tail _ hn)), fun m => ?_⟩
  rw [Store.get_put hwf]
  by_cases hm : m.val = e.slot
  · rw [if_pos hm, hm]
    exact ⟨nofun, fun hmem => absurd hmem hgone⟩
  · rw [if_neg hm, hflight m, hperm.mem_iff, List.mem_cons, or_iff_right hm]

/-- R150: at the entry to LOADING the RELOAD's own slot alone is IN_FLIGHT. -/
theorem SlotsMatch.clearSlots {q : Intake} {e : IntakeEntry} (hq : q.queue = [e]) (he : e.slot < 64) :
    SlotsMatch q.clearSlots.slots [e] := by
  have hslots : q.clearSlots.slots = Store.put CommandSlot.initial [] e.slot
      { CommandSlot.initial with inFlight := true } := by
    simp only [Intake.clearSlots, hq]
  have hnone : SlotsMatch [] [] := ⟨rfl, .nil, nofun, fun _ => ⟨nofun, nofun⟩⟩
  rw [hslots]
  exact hnone.append he e.command rfl

end

/-! ### The laws by name -/

/-- The canonical form of the stores other than the command slots. -/
structure State.StoresWf (s : State) : Prop where
  items    : Store.wf Item.undefined s.items = true
  segments : Store.wf Segment.empty s.segments = true
  quotes   : Store.wf QuoteSlot.initial s.quotes = true
  schedule : Store.wf SchedEntry.initial s.schedule = true
  cur      : Store.wf Style.builtIn s.styles.cur = true
  pend     : Store.wf Style.builtIn s.styles.pend = true
  deflt    : Store.wf Style.builtIn s.styles.deflt = true

/-- The laws of the intake and of the stores, clause by clause. -/
structure State.Orderly (s : State) : Prop where
  depth   : s.intake.queue.length ≤ 64
  taken   : s.writeBackTaken ≤ 16
  slots   : SlotsMatch s.intake.slots s.intake.queue
  head    : s.intake.reload.isSome = true → s.intake.queue ≠ []
  loading : s.intake.reload = some .loading → s.intake.queue.length = 1 ∧ s.device = .loading
  stores  : s.StoresWf

theorem State.orderly_iff (s : State) : s.Orderly ↔ s.IntakeLaw ∧ s.StoreLaw := by
  constructor
  · rintro ⟨hdepth, htaken, ⟨hwf, hnodup, hbound, hflight⟩, hhead, hloading,
      ⟨hitems, hsegments, hquotes, hschedule, hcur, hpend, hdeflt⟩⟩
    exact ⟨⟨hdepth, htaken, hnodup, hbound, hflight, hhead, hloading⟩,
      hitems, hsegments, hquotes, hschedule, hwf, hcur, hpend, hdeflt⟩
  · rintro ⟨⟨hdepth, htaken, hnodup, hbound, hflight, hhead, hloading⟩,
      hitems, hsegments, hquotes, hschedule, hwf, hcur, hpend, hdeflt⟩
    exact ⟨hdepth, htaken, ⟨hwf, hnodup, hbound, hflight⟩, hhead, hloading,
      ⟨hitems, hsegments, hquotes, hschedule, hcur, hpend, hdeflt⟩⟩

/-- All that the law of the intake reads. -/
abbrev State.queuePart (s : State) :
    DeviceState × Store CommandSlot × List IntakeEntry × Option ReloadStage × List ResultWord :=
  (s.device, s.intake.slots, s.intake.queue, s.intake.reload, s.own.writeBack)

/-- The stores other than the command slots. -/
abbrev State.storePart (s : State) :
    Store Item × Store Segment × Store QuoteSlot × Store SchedEntry × StyleTable :=
  (s.items, s.segments, s.quotes, s.schedule, s.styles)

theorem State.StoresWf.of_part {s t : State} (h : s.StoresWf) (k : t.storePart = s.storePart) :
    t.StoresWf := by
  simp only [Prod.mk.injEq] at k
  obtain ⟨hi, hg, hq, hc, hs⟩ := k
  obtain ⟨_, _, _, _, _, _, _⟩ := h
  constructor <;> simpa only [hi, hg, hq, hc, hs]

/-- What leaves the device state, the queues and the command slots, and keeps the form of the other
stores. -/
structure State.OrderFrame (s t : State) : Prop where
  queues : t.queuePart = s.queuePart
  stores : s.StoresWf → t.StoresWf

theorem State.OrderFrame.of_parts {s t : State} (hq : t.queuePart = s.queuePart)
    (hs : t.storePart = s.storePart) : s.OrderFrame t := ⟨hq, fun h => h.of_part hs⟩

theorem State.OrderFrame.refl (s : State) : s.OrderFrame s := ⟨rfl, id⟩

theorem State.OrderFrame.trans {s t u : State} (h : s.OrderFrame t) (k : t.OrderFrame u) :
    s.OrderFrame u := ⟨k.queues.trans h.queues, fun hs => k.stores (h.stores hs)⟩

theorem State.OrderFrame.after {s t u : State} (k : t.OrderFrame u) (hq : t.queuePart = s.queuePart)
    (hs : t.storePart = s.storePart) : s.OrderFrame u := (State.OrderFrame.of_parts hq hs).trans k

theorem State.Orderly.of_frame {s t : State} (h : s.Orderly) (k : s.OrderFrame t) : t.Orderly := by
  have hq := k.queues
  simp only [Prod.mk.injEq] at hq
  obtain ⟨hdevice, hslots, hqueue, hreload, hwrite⟩ := hq
  have htaken : t.writeBackTaken = s.writeBackTaken := by
    rw [State.writeBackTaken, State.writeBackTaken, hreload, hwrite]
  exact ⟨hqueue ▸ h.depth, htaken ▸ h.taken, hslots ▸ hqueue ▸ h.slots, hreload ▸ hqueue ▸ h.head,
    hreload ▸ hqueue ▸ hdevice ▸ h.loading, k.stores h.stores⟩

end Sys2Proof.Machine

/-! ## The events of the intake, of the write-back queue and of loads keep the laws -/

namespace Sys2Proof.Machine

/-! ### Results and completions (R148, R149, R156) -/

theorem State.resultRoom_iff (s : State) : s.resultRoom = true ↔ s.writeBackTaken < 16 :=
  decide_eq_true_iff

theorem State.writeBackTaken_of_reload {s : State} (h : s.intake.reload ≠ none) :
    s.writeBackTaken = s.own.writeBack.length + 1 := by
  simp [State.writeBackTaken, Option.isSome_iff_ne_none.mpr h]

theorem State.Orderly.handOver {s : State} (h : s.Orderly) (r : ResultWord)
    (hroom : s.writeBackTaken < 16) : (s.handOver r).Orderly := by
  rw [State.handOver_eq]
  obtain ⟨hdepth, _, hslots, hhead, hloading, hstores⟩ := h
  refine ⟨hdepth, ?_, hslots, hhead, hloading, hstores.of_part rfl⟩
  simp only [State.writeBackTaken, List.length_append, List.length_singleton] at hroom ⊢
  omega

/-- R149: a command at the head completes, with no RELOAD under way. -/
theorem State.Orderly.complete {s : State} (h : s.Orderly) {e : IntakeEntry}
    (hq : s.intake.queue.head? = some e) (hr : s.intake.reload = none)
    (hroom : s.own.writeBack.length < 16) (r : ResultCode) : (s.complete e r).Orderly := by
  obtain ⟨rest, hqueue⟩ := List.head?_eq_some_iff.mp hq
  obtain ⟨hdepth, _, hslots, _, _, hstores⟩ := h
  rw [hqueue] at hdepth hslots
  have hleave := SlotsMatch.leave (ahead := []) (x := s.slot e.slot) hslots
  rw [State.complete_eq, hqueue]
  refine ⟨Nat.le_of_succ_le hdepth, ?_, hleave, ?_, ?_, hstores.of_part rfl⟩
  · simp only [State.writeBackTaken, hr, List.length_append, List.length_singleton, Option.isSome_none,
      Bool.false_eq_true, if_false]
    omega
  · simp only [hr, Option.isSome_none, Bool.false_eq_true, false_implies]
  · simp only [hr, reduceCtorEq, false_implies]

/-- R148, R149: the execution of a command whose effect leaves the queues. -/
theorem State.Orderly.runIf {s : State} (h : s.Orderly) {isMine : Nat → Bool} {eff : Effect}
    (heff : ∀ c, s.quiet.OrderFrame (eff c s.quiet).1) : (s.runIf isMine eff).Orderly := by
  have hquiet : s.quiet.Orderly := h.of_frame (.of_parts rfl rfl)
  rcases s.runIf_cases isMine eff with e | ⟨e, hnext, _, hrun⟩
  · rwa [e]
  · obtain ⟨hmay, hhead, _⟩ := State.nextCommand_eq_some.mp hnext
    simp only [State.mayExecute, Bool.and_eq_true, Option.isNone_iff_eq_none, decide_eq_true_eq] at hmay
    obtain ⟨⟨⟨_, hreload⟩, hroom⟩, _⟩ := hmay
    have hparts := (heff e.command).queues
    simp only [Prod.mk.injEq] at hparts
    obtain ⟨_, _, hqueue, hreload', hwrite⟩ := hparts
    rw [hrun]
    exact (hquiet.of_frame (heff e.command)).complete (hqueue ▸ hhead) (hreload'.trans hreload)
      (hwrite ▸ hroom) _

/-- R156: memory's response to the head's write. -/
theorem State.Orderly.drain {s : State} (h : s.Orderly) :
    State.Orderly { s.quiet with own := s.own.drain } := by
  obtain ⟨hdepth, htaken, hslots, hhead, hloading, hstores⟩ := h
  refine ⟨hdepth, Nat.le_trans ?_ htaken, hslots, hhead, hloading, hstores.of_part rfl⟩
  exact Nat.add_le_add_right (List.length_tail.trans_le (Nat.sub_le _ _)) _

/-! ### RELOAD and the entry to LOADING (R148, R150, R170, R171) -/

theorem State.enterLoading_eq (s : State) :
    s.enterLoading =
      { s.clearProgram with
        device := .loading, loader := Loader.begin
        intake := { s.clearProgram.intake.clearSlots with reload := some .loading }
        port := s.port.released, out := s.out ++ s.port.unmerged } := by
  unfold State.enterLoading
  dsimp only
  rw [State.releaseUnmerged_eq rfl]
  rfl

/-- R150, R170: the entry to LOADING with the RELOAD alone in the queue and an entry of the write-back
queue kept for it. -/
theorem State.Orderly.enterLoading {s : State} (h : s.Orderly) {e : IntakeEntry}
    (hq : s.intake.queue = [e]) (hroom : s.own.writeBack.length < 16) : s.enterLoading.Orderly := by
  have hqueue : s.clearProgram.intake.clearSlots.queue = [e] := hq
  have hslots : SlotsMatch s.clearProgram.intake.clearSlots.slots [e] :=
    SlotsMatch.clearSlots hq (h.slots.bound _ (by rw [hq]; exact List.mem_singleton_self _))
  have hstores := h.stores
  rw [State.enterLoading_eq]
  refine ⟨?_, ?_, ?_, fun _ => ?_, fun _ => ⟨?_, rfl⟩,
    ⟨rfl, rfl, rfl, rfl, hstores.deflt, hstores.deflt, hstores.deflt⟩⟩
  · simp only [hqueue, List.length_singleton]
    omega
  · exact hroom
  · simp only [hqueue]
    exact hslots
  · simp only [hqueue]
    exact List.cons_ne_nil _ _
  · simp only [hqueue, List.length_singleton]

theorem State.Orderly.runReload {s : State} (h : s.Orderly) : s.runReload.Orderly := by
  unfold State.runReload
  split
  · exact h
  · rename_i e hnext
    obtain ⟨hmay, hhead, _⟩ := State.nextCommand_eq_some.mp hnext
    simp only [State.mayExecute, Bool.and_eq_true, Option.isNone_iff_eq_none, decide_eq_true_eq] at hmay
    obtain ⟨⟨⟨_, hreload⟩, hroom⟩, _⟩ := hmay
    split
    · exact h
    · split
      · exact h.complete hhead hreload hroom _
      · obtain ⟨rest, hqueue⟩ := List.head?_eq_some_iff.mp hhead
        unfold State.acceptReload
        rw [hqueue]
        split
        · rename_i hlast
          have hrest : rest = [] := List.isEmpty_iff.mp hlast
          exact h.enterLoading (hqueue.trans (congrArg (e :: ·) hrest)) hroom
        · exact ⟨h.depth, Nat.succ_le_of_lt hroom, h.slots,
            fun _ => ne_of_eq_of_ne hqueue (List.cons_ne_nil _ _), nofun, h.stores.of_part rfl⟩

/-- R150: an ABORTED answer takes the first entry behind the RELOAD; the last is followed by the entry to
LOADING. -/
theorem State.Orderly.abortNext {s : State} (h : s.Orderly) (hmay : s.mayAbort = true) :
    s.abortNext.Orderly := by
  simp only [State.mayAbort, Bool.and_eq_true, beq_iff_eq] at hmay
  obtain ⟨⟨_, hreload⟩, hroom⟩ := hmay
  have hroom' := s.resultRoom_iff.mp hroom
  unfold State.abortNext
  split
  · rename_i r e rest hqueue
    obtain ⟨hdepth, htaken, hslots, _, _, hstores⟩ := h
    rw [hqueue] at hdepth hslots
    have hleft : State.Orderly
        (State.freeSlot { s with intake := { s.intake with queue := r :: rest } } e.slot) :=
      ⟨Nat.le_of_succ_le hdepth, htaken, SlotsMatch.leave (ahead := [r]) hslots,
        fun _ => List.cons_ne_nil r rest, fun hl => absurd (hreload.symm.trans hl) nofun,
        hstores.of_part rfl⟩
    have hanswered := hleft.handOver (e.command.answer e.slot .aborted) hroom'
    dsimp only
    split
    · rename_i hlast
      have hrest : rest = [] := List.isEmpty_iff.mp hlast
      have htaken' := hanswered.taken
      rw [State.writeBackTaken_of_reload (by rw [State.handOver_eq]; exact ne_of_eq_of_ne hreload nofun)]
        at htaken'
      refine hanswered.enterLoading (e := r) ?_ htaken'
      rw [State.handOver_eq, hrest]
      rfl
    · exact hanswered
  · exact h

/-! ### The end of a load (R149, R150, R164, R169) -/

/-- R164, R169: a load that has failed, before a waiting RELOAD is answered. -/
def State.loadFailed (s : State) (r : LoadReason) : State :=
  State.snapshot
    (State.raise
      { s with
        device := .unconfigured
        loader := { status := .failed, reason := some r, bus := .idle, staging := [] }
        conf := { anchor := strapAnchor s.pins.straps, flow := strapFlow s.pins.straps,
                  stall := Config.stallDefault, decode := none, rate := none, reportLine := none }
        fonts := Four.all Font.absent
        rep := { s.rep with mask := s.rep.mask ||| Event.bit .loadFail } } .loadFail)

theorem State.loadFail_eq (s : State) (r : LoadReason) :
    s.loadFail r = (s.loadFailed r).completeReload r.result := rfl

/-- R149, R150: the end of a load answers the RELOAD under way, in whatever device state it ends. -/
theorem State.Orderly.endLoad {s t : State} (h : s.Orderly) (hintake : t.intake = s.intake)
    (hwrite : t.own.writeBack = s.own.writeBack) (hstores : t.StoresWf) (r : ResultCode) :
    (t.completeReload r).Orderly := by
  obtain ⟨hdepth, htaken, hslots, hhead, _, _⟩ := h
  have hsame : s.writeBackTaken = t.writeBackTaken := by
    rw [State.writeBackTaken, State.writeBackTaken, hintake, hwrite]
  rw [hsame] at htaken
  rw [← hintake] at hdepth hslots hhead
  by_cases hnone : t.intake.reload = none
  · rw [State.completeReload_of_none hnone]
    exact ⟨hdepth, htaken, hslots, hhead, fun hl => absurd (hnone.symm.trans hl) nofun, hstores⟩
  · obtain ⟨e, rest, hqueue⟩ := List.exists_cons_of_ne_nil
      (hhead (Option.isSome_iff_ne_none.mpr hnone))
    rw [State.writeBackTaken_of_reload hnone] at htaken
    have hfree : State.Orderly { t with intake := { t.intake with reload := none } } :=
      ⟨hdepth, Nat.le_of_succ_le htaken, hslots, nofun, nofun, hstores.of_part rfl⟩
    rw [State.completeReload_of_waiting hnone hqueue]
    exact hfree.complete (List.head?_eq_some_iff.mpr ⟨rest, hqueue⟩) rfl htaken r

theorem State.OrderFrame.endBus (s : State) : s.OrderFrame s.endBus := by
  unfold State.endBus
  cases s.loader.bus <;> exact .of_parts rfl rfl

theorem State.Orderly.failLoad {s : State} (h : s.Orderly) (r : LoadReason) :
    (s.failLoad r).Orderly := by
  have hbus := h.of_frame (.endBus s)
  rw [State.failLoad, State.loadFail_eq]
  exact hbus.endLoad (t := s.endBus.loadFailed r) rfl rfl (hbus.stores.of_part rfl) _

theorem wf_styleStore (ss : List (Nat × Style)) : Store.wf Style.builtIn (styleStore ss) = true :=
  List.foldlRecOn (motive := fun m => Store.wf Style.builtIn m = true) ss _ rfl
    fun _ hm _ _ => Store.put_wf hm

/-- R119, R169: the styles that a load installs. -/
theorem State.Orderly.loadDone {s : State} (h : s.Orderly) (i : Image) (c : ImageConfig) :
    (s.loadDone i c).Orderly := by
  obtain ⟨hitems, hsegments, hquotes, hschedule, _, _, _⟩ := h.stores
  have hstyles := wf_styleStore (i.styles.getD [])
  rw [State.loadDone_eq]
  exact h.endLoad (t := s.loaded i c) rfl rfl
    ⟨hitems, hsegments, hquotes, hschedule, hstyles, hstyles, hstyles⟩ _

theorem State.Orderly.receiveByte {s : State} (h : s.Orderly) (b : Byte) :
    (s.receiveByte b).Orderly := by
  unfold State.receiveByte
  generalize hu : { s with loader :=
    { s.loader with bus := .reading, staging := s.loader.staging ++ [b] } } = u
  have hread : u.Orderly := h.of_frame (hu ▸ .of_parts rfl rfl)
  rcases u.afterByte_cases with e | ⟨r, e⟩ | ⟨i, c, e⟩ <;> rw [e]
  · exact hread
  · exact hread.failLoad r
  · exact (hread.of_frame (.endBus u)).loadDone i c

end Sys2Proof.Machine

/-! ## The system port keeps the laws of the queues and of the stores (R46, R51, R142 to R147, R153) -/

namespace Sys2Proof.Machine

/-! ### Closing beats -/

/-- R141, R154: a beat that closes a command closes one of the 64 slots, out of LOADING. -/
theorem State.lt_of_closes {s : State} {b : Beat} {n : Nat} (h : s.closes b = some n) :
    n < 64 ∧ s.device ≠ .loading := by
  unfold State.closes at h
  split at h
  · rename_i k upper hrange
    split at h
    · rename_i hclose
      simp only [Bool.and_eq_true, bne_iff_ne] at hclose
      obtain ⟨_, hdevice⟩ := hclose
      cases h
      refine ⟨?_, hdevice⟩
      unfold beatRange at hrange
      split at hrange
      · cases hrange
      · dsimp only at hrange
        split at hrange
        · cases hrange
          omega
        · split at hrange <;> cases hrange
    · cases h
  · cases h
  · cases h

/-- R142 to R147: what a decision on a closing write of slot `n` needs of the state: an entry that is
appended has room, its slot FREE; an answer has room in the write-back queue. -/
def State.Admits (s : State) (n : Nat) : Decision → Prop
  | .append => s.intake.queue.length < 64 ∧ (s.slot n).inFlight = false
  | .answer _ => s.writeBackTaken < 16
  | .hold _ => True
  | .discard => True

theorem State.admits_flowDecision (s : State) (n : Nat) (need : HoldNeed) :
    s.Admits n (s.flowDecision need) := by
  unfold State.flowDecision
  cases s.conf.flow <;> trivial

theorem State.admits_answerDecision (s : State) (n : Nat) (r : ResultCode) :
    s.Admits n (s.answerDecision r) := by
  unfold State.answerDecision
  split
  · rename_i hroom
    exact s.resultRoom_iff.mp hroom
  · exact s.admits_flowDecision n _

theorem State.admits_decideSlot {s : State} {n : Nat} (h : s.intake.queue.length < 64) :
    s.Admits n (s.decideSlot n) := by
  unfold State.decideSlot
  split
  · exact s.admits_answerDecision n _
  · rename_i hfree
    exact ⟨h, Bool.eq_false_iff.mpr hfree⟩

/-- R142: the decision on a closing write that is presented. -/
theorem State.admits_decideClosing (s : State) (n : Nat) (c : Command) :
    s.Admits n (s.decideClosing n c) := by
  unfold State.decideClosing
  split
  · exact s.admits_answerDecision n _
  · split
    · exact s.admits_flowDecision n _
    · rename_i hroom
      exact State.admits_decideSlot (Nat.lt_of_not_le hroom)

/-- R144, R147: the decision on a held write that is due. -/
theorem State.admits_decideAgain {s : State} (need : HoldNeed) (n : Nat) (c : Command)
    (h : need = .intakeRoom → s.intake.queue.length < 64) : s.Admits n (s.decideAgain need n c) := by
  cases need with
  | intakeRoom => exact State.admits_decideSlot (h rfl)
  | resultRoom => exact s.admits_answerDecision n _

/-! ### The monitor -/

theorem CommandSlot.merge_inFlight (c : CommandSlot) (upper : Bool) (b : Beat) :
    (c.merge upper b).inFlight = c.inFlight := by
  cases upper <;> rfl

/-- R46, R141: the monitor changes assemblies and quote slots; no slot's state. -/
theorem State.monitor_inFlight {s : State} (hwf : Store.wf CommandSlot.initial s.intake.slots = true)
    (b : Beat) (n : Nat) : ((s.monitor b).slot n).inFlight = (s.slot n).inFlight := by
  unfold State.monitor
  split
  · rename_i k upper _
    split
    · rfl
    · unfold State.slot
      rw [State.setSlot_slots, Store.get_put hwf]
      split
      · rename_i hk
        rw [CommandSlot.merge_inFlight, hk]
      · rfl
  · split <;> rfl
  · rfl

theorem State.monitor_queues (s : State) (b : Beat) :
    (s.monitor b).intake.queue = s.intake.queue ∧
      (s.monitor b).writeBackTaken = s.writeBackTaken := by
  unfold State.monitor
  split
  · split <;> exact ⟨rfl, rfl⟩
  · split <;> exact ⟨rfl, rfl⟩
  · exact ⟨rfl, rfl⟩

theorem State.Orderly.setSlot {s : State} (h : s.Orderly) {n : Nat} {c : CommandSlot}
    (hc : c.inFlight = (s.slot n).inFlight) : (s.setSlot n c).Orderly :=
  ⟨h.depth, h.taken, h.slots.put hc, h.head, h.loading, h.stores.of_part rfl⟩

theorem State.OrderFrame.setQuote (s : State) (n : Nat) (q : QuoteSlot) :
    s.OrderFrame (s.setQuote n q) :=
  ⟨rfl, fun hs => ⟨hs.items, hs.segments, Store.put_wf hs.quotes, hs.schedule, hs.cur, hs.pend,
    hs.deflt⟩⟩

theorem State.Orderly.monitor {s : State} (h : s.Orderly) (b : Beat) : (s.monitor b).Orderly := by
  unfold State.monitor
  split
  · split
    · exact h
    · exact h.setSlot (CommandSlot.merge_inFlight _ _ b)
  · split
    · exact h.of_frame (.setQuote s _ _)
    · exact h
  · exact h

/-! ### The outcome of a closing write (R142, R143, R145) -/

/-- R143: a RELOAD that loads stands alone, so nothing is appended in LOADING. -/
theorem State.Orderly.append {s : State} (h : s.Orderly) {n : Nat} (hn : n < 64)
    (hdevice : s.device ≠ .loading) (hroom : s.intake.queue.length < 64)
    (hfree : (s.slot n).inFlight = false) (c : Command) : (s.append n c).Orderly := by
  obtain ⟨_, htaken, hslots, _, hloading, hstores⟩ := h
  refine ⟨?_, htaken, hslots.append hn c hfree, fun _ => ?_, fun hl => ?_, hstores.of_part rfl⟩
  · exact (List.length_append ..).trans_le hroom
  · exact List.append_ne_nil_of_right_ne_nil _ (List.cons_ne_nil _ _)
  · obtain ⟨_, hd⟩ := hloading hl
    exact absurd hd hdevice

theorem State.Orderly.settle {s : State} (h : s.Orderly) {n : Nat} (hn : n < 64)
    (hdevice : s.device ≠ .loading) (c : Command) {d : Decision} (hd : s.Admits n d) :
    (s.settle n c d).Orderly := by
  cases d with
  | append =>
    obtain ⟨hroom, hfree⟩ := hd
    exact h.append hn hdevice hroom hfree c
  | answer r => exact h.handOver _ hd
  | hold need => exact h
  | discard => exact h.of_frame (.of_parts rfl rfl)

/-- R141, R142: the closing beat is merged, and the command decided as of before. -/
theorem State.Orderly.close {s : State} (h : s.Orderly) {b : Beat} {n : Nat}
    (hclose : s.closes b = some n) (c : Command) {d : Decision} (hd : s.Admits n d) :
    ((s.monitor b).settle n c d).Orderly := by
  obtain ⟨hn, hdevice⟩ := State.lt_of_closes hclose
  obtain ⟨hqueue, htaken⟩ := s.monitor_queues b
  refine (h.monitor b).settle hn ((State.PortFrame.monitor s b).device ▸ hdevice) c ?_
  cases d with
  | append =>
    obtain ⟨hroom, hfree⟩ := hd
    exact ⟨hqueue ▸ hroom, (State.monitor_inFlight h.slots.wf b n).trans hfree⟩
  | answer r => exact htaken.trans_lt hd
  | hold need => trivial
  | discard => trivial

/-! ### Transactions (R51, R144, R153) -/

theorem State.Orderly.takeBeats : ∀ (bs : List Beat) {s : State}, s.Orderly →
    (s.takeBeats bs).state.Orderly
  | [], _, h => h
  | b :: bs, s, h => by
    unfold State.takeBeats
    split
    · exact State.Orderly.takeBeats bs (h.monitor b)
    · rename_i n hclose
      dsimp only
      split
      · exact h
      · exact State.Orderly.takeBeats bs (h.close hclose _ (s.admits_decideClosing n _))

/-- R153, R155: the passing of a transaction's beats drives the ports and sets what is held. -/
theorem Taken.pass_eq (t : Taken) (size : BeatSize) (priorErr : Bool) (rs : List MemResp) :
    ∃ out port, t.pass size priorErr rs = { t.state with out := out, port := port } := by
  have hwrite : ∃ out, t.state.emitWrite .system size t.passed = { t.state with out := out } := by
    unfold State.emitWrite
    split
    · exact ⟨_, rfl⟩
    · exact ⟨_, rfl⟩
  obtain ⟨out, hout⟩ := hwrite
  unfold Taken.pass
  dsimp only
  rw [hout]
  split
  · exact ⟨_, _, rfl⟩
  · exact ⟨_, _, rfl⟩

theorem State.Orderly.ports {s : State} (h : s.Orderly) (out : List PortEvent) (port : SysPort) :
    State.Orderly { s with out := out, port := port } := h.of_frame (.of_parts rfl rfl)

theorem State.Orderly.pass {t : Taken} (h : t.state.Orderly) (size : BeatSize) (priorErr : Bool)
    (rs : List MemResp) : (t.pass size priorErr rs).Orderly := by
  obtain ⟨out, port, e⟩ := t.pass_eq size priorErr rs
  rw [e]
  exact h.ports out port

theorem State.Orderly.takeTxn {s : State} (h : s.Orderly) (t : SysTxn) : (s.takeTxn t).Orderly := by
  cases t with
  | write w => exact (State.Orderly.takeBeats w.beats h).pass _ _ _
  | read r => exact h.ports _ s.port

theorem State.Orderly.takeWaiting : ∀ (ts : List SysTxn) {s : State}, s.Orderly →
    (s.takeWaiting ts).Orderly
  | [], s, h => h.ports s.out _
  | t :: ts, s, h => by
    unfold State.takeWaiting
    split
    · exact h.ports s.out _
    · exact State.Orderly.takeWaiting ts (h.takeTxn t)

/-! ### The held write (R144, R145, R147) -/

theorem State.Orderly.releaseBeats {s : State} (h : s.Orderly) (need : HoldNeed) (bs : List Beat)
    (hdue : need = .intakeRoom → s.intake.queue.length < 64) :
    (s.releaseBeats need bs).state.Orderly := by
  cases bs with
  | nil => exact h
  | cons b bs =>
    unfold State.releaseBeats
    dsimp only
    split
    · exact State.Orderly.takeBeats bs (h.monitor b)
    · rename_i n hclose
      split
      · exact h
      · exact State.Orderly.takeBeats bs (h.close hclose _ (State.admits_decideAgain need n _ hdue))

theorem State.Orderly.expireBeats {s : State} (h : s.Orderly) (bs : List Beat) :
    (s.expireBeats bs).state.Orderly := by
  cases bs with
  | nil => exact h
  | cons b bs =>
    unfold State.expireBeats
    dsimp only
    refine State.Orderly.takeBeats bs ?_
    split
    · exact h.monitor b
    · exact (h.monitor b).of_frame (.of_parts rfl rfl)

/-- R144: a held write that is due finds the room it waits for. -/
theorem State.room_of_heldDue {s : State} {x : Held} (hheld : s.port.held = some x)
    (h : s.heldDue = true) (hneed : x.need = .intakeRoom) : s.intake.queue.length < 64 := by
  simpa [State.heldDue, hheld, hneed] using h

theorem State.Orderly.dropHeld {s : State} (h : s.Orderly) : s.dropHeld.Orderly := h.ports s.out _

theorem State.Orderly.releaseHeld {s : State} (h : s.Orderly) (hdue : s.heldDue = true) :
    s.releaseHeld.Orderly := by
  unfold State.releaseHeld
  split
  · exact h
  · rename_i x hheld
    have hroom := State.room_of_heldDue hheld hdue
    exact .takeWaiting _ (.pass (h.dropHeld.releaseBeats _ _
      hroom) _ _ _)

theorem State.Orderly.expireHeld {s : State} (h : s.Orderly) : s.expireHeld.Orderly := by
  unfold State.expireHeld
  split
  · exact h
  · exact .takeWaiting _ (.pass (h.dropHeld.expireBeats _) _ _ _)

end Sys2Proof.Machine

/-! ## Every step keeps the laws of the queues and of the stores -/

namespace Sys2Proof.Machine

/-! ### Fired actions and the field start (R8, R54, R122, R124, R128) -/

theorem State.OrderFrame.of_fire {s t : State} (h : s.FireFrame t) : s.OrderFrame t :=
  .of_parts ((congrArg State.queuePart h).trans rfl) ((congrArg State.storePart h).trans rfl)

/-- R128: the schedule's entries are disarmed in their store. -/
theorem storesWf_firing : KeptByFiring State.StoresWf where
  clock := fun _ _ h => h.of_part rfl
  sched := fun _ _ _ h =>
    ⟨h.items, h.segments, h.quotes, Store.put_wf h.schedule, h.cur, h.pend, h.deflt⟩
  raise := fun _ _ h => h.of_part rfl
  act := fun s a n h => (State.OrderFrame.of_fire (.actOnLane s a n)).stores h
  style := fun _ _ _ h => h.of_part rfl

theorem State.StoresWf.transferStyles {s : State} (h : s.StoresWf) : s.transferStyles.StoresWf :=
  List.foldlRecOn _ _ h fun _ ht _ _ =>
    ⟨ht.items, ht.segments, ht.quotes, ht.schedule, Store.put_wf ht.cur, ht.pend, ht.deflt⟩

theorem State.StoresWf.checkSlot {s : State} (h : s.StoresWf) (k : Nat) : (s.checkSlot k).StoresWf := by
  rcases s.checkSlot_cases k with e | ⟨v, _, e⟩ <;> rw [e]
  · exact h
  · exact ⟨h.items, h.segments, Store.put_wf h.quotes, h.schedule, h.cur, h.pend, h.deflt⟩

theorem State.OrderFrame.laneStep (s : State) (n : Fin 4) (w : LaneWork) :
    s.OrderFrame (s.laneStep n w).1 := by
  have h := s.laneStep_frame n w
  constructor
  · rw [State.queuePart, h.device, h.intake, h.own]
  · exact fun hs => hs.of_part (by
      rw [State.storePart, h.items, h.segments, h.quotes, h.schedule, h.styles])

/-- The shares of a field start, in every order. -/
theorem State.OrderFrame.fieldShares (s : State) (order : List FieldTok) :
    s.OrderFrame (s.fieldShares order) := by
  refine ⟨(congrArg State.queuePart (State.FieldKept.fieldShares s order).frame).trans rfl,
    fun hs => ?_⟩
  obtain ⟨_, _, hstores⟩ := State.fieldShares_induct (P := fun r => r.1.StoresWf) order hs
    fun r t _ hr => by
      cases t with
      | styles => exact hr.transferStyles
      | slot k => exact hr.checkSlot k
      | lane n => exact (State.OrderFrame.laneStep r.1 n _).stores hr
      | clock => exact storesWf_firing.accumulate hr
  exact hstores

/-- R124: the clock's share of a field start. -/
theorem State.OrderFrame.accumulate (s : State) : s.OrderFrame s.accumulate :=
  ⟨(congrArg State.queuePart ((fieldKept_firing s).accumulate (.refl s)).frame).trans rfl,
    storesWf_firing.accumulate⟩

/-! ### The scan port (R94, R131 to R134, R161) -/

theorem State.OrderFrame.fireCue (s : State) (n : Fin 4) : s.OrderFrame (s.fireCue n) := by
  unfold State.fireCue
  split
  · exact .refl s
  · unfold State.captureCue
    dsimp only
    split
    · exact .refl s
    · exact .of_parts rfl rfl
  · exact .of_fire (.fireOnLanes s _ _)

theorem State.OrderFrame.sampleCue (s : State) (n : Fin 4) : s.OrderFrame (s.sampleCue n) := by
  unfold State.sampleCue
  dsimp only
  split
  · exact .after (.fireCue _ n) rfl rfl
  · exact .of_parts rfl rfl

/-- What the line register's write, each sampling and the report writer's examination keep, a frame line
handed on keeps, in every order of its shares. -/
theorem State.handLine_induct {P : State → Prop} {s : State} {line : Nat} (order : List ReadTok)
    (hline : P { s with cue := { s.cue with lineReg := some line } })
    (hcue : ∀ t n, P t → P (t.sampleCue n)) (hexamine : ∀ t, P t → P (t.examineLine line)) :
    P (s.handLine line order) := by
  unfold State.handLine
  refine List.foldlRecOn (motive := fun r : State × ReadWork => P r.1) _ _ hline fun r hr t _ => ?_
  cases t with
  | cue n =>
    simp only [State.readTok]
    split
    · exact hcue r.1 n hr
    · exact hr
  | report =>
    simp only [State.readTok]
    split
    · exact hexamine r.1 hr
    · exact hr

theorem State.OrderFrame.handLine (s : State) (line : Nat) (order : List ReadTok) :
    s.OrderFrame (s.handLine line order) := by
  refine State.handLine_induct order (.of_parts rfl rfl) (fun t n h => h.trans (.sampleCue t n))
    fun t h => h.trans ?_
  unfold State.examineLine
  split
  · exact .of_parts rfl rfl
  · exact .refl t

/-! ### The part's own writes (R156, R162) -/

theorem State.OrderFrame.emitWrite (s : State) (src : Source) (size : BeatSize) (bs : List Beat) :
    s.OrderFrame (s.emitWrite src size bs) := by
  unfold State.emitWrite
  split
  · exact .refl s
  · exact .of_parts rfl rfl

theorem State.OrderFrame.writeResult (s : State) : s.OrderFrame s.writeResult := by
  unfold State.writeResult
  split
  · exact .refl s
  · exact .after (.emitWrite _ _ _ _) rfl rfl

theorem State.OrderFrame.writeReport (s : State) (n : Nat) : s.OrderFrame (s.writeReport n) := by
  unfold State.writeReport
  split
  · exact .refl s
  · exact .after (.emitWrite _ _ _ _) rfl rfl

/-! ### The kill latch (R137) -/

theorem State.OrderFrame.killFall (s : State) : s.OrderFrame s.killFall := by
  unfold State.killFall
  split <;> exact .of_parts rfl rfl

/-! ### Power-on reset and its release (R166) -/

theorem State.orderly_powerOn (s : State) : s.powerOn.Orderly where
  depth := Nat.zero_le _
  taken := Nat.zero_le _
  slots := ⟨rfl, .nil, nofun, fun _ => ⟨nofun, nofun⟩⟩
  head := nofun
  loading := nofun
  stores := ⟨rfl, rfl, rfl, rfl, rfl, rfl, rfl⟩

/-- R165, R166: the release of reset is an entry to LOADING, which a RELOAD that loads stands in. -/
theorem State.Orderly.releaseReset {s : State} (h : s.Orderly) (x : Straps) (killN : Bool) :
    (s.releaseReset x killN).Orderly := by
  obtain ⟨hdepth, htaken, hslots, hhead, hloading, hstores⟩ := h
  have hl := fun e => And.intro (hloading e).1 (Eq.refl DeviceState.loading)
  unfold State.releaseReset
  dsimp only
  split
  · exact ⟨hdepth, htaken, hslots, hhead, hl, hstores.of_part rfl⟩
  · exact ⟨hdepth, htaken, hslots, hhead, hl, hstores.of_part rfl⟩

/-! ### The effects of commands -/

section
variable (c : Command) (s : State)

theorem maskEffect_order (a : LaneAction) : s.OrderFrame (maskEffect a c s).1 := by
  unfold maskEffect
  split
  · exact .refl s
  · exact .of_fire (.overLanes s a _)

theorem restoreEffect_order : s.OrderFrame (restoreEffect c s).1 := by
  refine orBadArg_induct (.refl s) fun b _ => ?_
  split
  · exact .refl s
  · split
    · exact .refl s
    · exact List.foldlRecOn (motive := s.OrderFrame) _ _ (.of_parts rfl rfl)
        fun _ h _ _ => h.trans (.of_parts rfl rfl)

theorem itemDefineEffect_order : s.OrderFrame (itemDefineEffect c s).1 := by
  refine orBadArg_induct (.refl s) fun i _ => orBadArg_induct (.refl s) fun it _ => ?_
  split
  · exact .refl s
  · exact ⟨rfl, fun h =>
      ⟨Store.put_wf h.items, h.segments, h.quotes, h.schedule, h.cur, h.pend, h.deflt⟩⟩

theorem itemDropEffect_order : s.OrderFrame (itemDropEffect c s).1 := by
  refine orBadArg_induct (.refl s) fun i _ => ?_
  split
  · exact .refl s
  · split
    · exact ⟨rfl, fun h =>
        ⟨Store.put_wf h.items, h.segments, h.quotes, h.schedule, h.cur, h.pend, h.deflt⟩⟩
    · exact .refl s

theorem textSegmentEffect_order : s.OrderFrame (textSegmentEffect c s).1 := by
  refine orBadArg_induct (.refl s) fun a _ => ?_
  split
  · exact .refl s
  · exact ⟨rfl, fun h =>
      ⟨h.items, Store.put_wf h.segments, h.quotes, h.schedule, h.cur, h.pend, h.deflt⟩⟩

theorem State.OrderFrame.setPendingStyle (k : Nat) (v : Style) :
    s.OrderFrame (s.setPendingStyle k v) :=
  ⟨rfl, fun h => ⟨h.items, h.segments, h.quotes, h.schedule, h.cur, Store.put_wf h.pend, h.deflt⟩⟩

theorem styleFormEffect_order : s.OrderFrame (styleFormEffect c s).1 := by
  refine orBadArg_induct (.refl s) fun k _ => orBadArg_induct (.refl s) fun fl _ =>
    orBadArg_induct (.refl s) fun w _ => ?_
  split
  · exact .refl s
  · exact .setPendingStyle s k _

theorem scheduleSetEffect_order : s.OrderFrame (scheduleSetEffect c s).1 :=
  orBadArg_induct (.refl s) fun a _ => ⟨rfl, fun h => storesWf_firing.sched s a.1 a.2 h⟩

/-- A store with some of its records cleared keeps its form. -/
theorem Store.filter_wfAbove {α : Type} [DecidableEq α] {d : α} (p : Nat × α → Bool) :
    ∀ {m : Store α} {lo : Option Nat}, Store.wfAbove d lo m = true →
      Store.wfAbove d lo (m.filter p) = true
  | [], _, _ => rfl
  | (k, v) :: m, lo, h => by
    have h' := h
    simp only [Store.wfAbove, Bool.and_eq_true, decide_eq_true_eq] at h
    obtain ⟨⟨hlo, hv⟩, hm⟩ := h
    rw [List.filter_cons]
    split
    · simp only [Store.wfAbove, Bool.and_eq_true, decide_eq_true_eq]
      exact ⟨⟨hlo, hv⟩, Store.filter_wfAbove p hm⟩
    · refine Store.filter_wfAbove p (Store.wfAbove_mono hm fun l hl => ?_)
      rw [hl, Option.all_some, decide_eq_true_eq] at hlo
      exact Nat.le_of_lt hlo

theorem scheduleClearEffect_order : s.OrderFrame (scheduleClearEffect c s).1 :=
  ⟨rfl, fun h =>
    ⟨h.items, h.segments, h.quotes, Store.filter_wfAbove _ h.schedule, h.cur, h.pend, h.deflt⟩⟩

/-- R170: REINIT empties the stores and returns the styles to their defaults. -/
theorem State.OrderFrame.clearProgram : s.OrderFrame s.clearProgram :=
  ⟨rfl, fun h => ⟨rfl, rfl, rfl, rfl, h.deflt, h.deflt, h.deflt⟩⟩

end

/-! ### Every command -/

theorem State.OrderFrame.ite {s t u : State} {p : Prop} [Decidable p] (ht : s.OrderFrame t)
    (hu : s.OrderFrame u) : s.OrderFrame (if p then t else u) := by
  split
  · exact ht
  · exact hu

/-- Every command keeps the laws. -/
theorem State.Orderly.exec {i : Instr} {s t : State} (h : s.Orderly) (hx : exec i s = .next t) :
    t.Orderly := by
  have quiet : s.OrderFrame s.quiet := .of_parts rfl rfl
  have hquiet : s.quiet.Orderly := h.of_frame quiet
  have run : ∀ {isMine : Nat → Bool} {eff : Effect},
      (∀ c, s.quiet.OrderFrame (eff c s.quiet).1) → (s.runIf isMine eff).Orderly := h.runIf
  have arg : ∀ {α : Type} {a : Option α} {f : α → State × ResultCode},
      (∀ x, s.quiet.OrderFrame (f x).1) → s.quiet.OrderFrame (orBadArg a s.quiet f).1 :=
    fun hf => orBadArg_induct (.refl _) fun x _ => hf x
  have ite : ∀ {p : Prop} [Decidable p] {u v : State}, (p → u.Orderly) → v.Orderly →
      (if p then u else v).Orderly := fun hu hv => by split; exacts [hu ‹_›, hv]
  have lane : ∀ n l, s.quiet.OrderFrame (s.quiet.setLane n l) := fun _ _ => .of_parts rfl rfl
  have straps : ∀ x, (s.quiet.readStraps x).Orderly := fun _ => h.of_frame (.of_parts rfl rfl)
  cases i
  case laneForm =>
    exact next_eq hx ▸ run fun c => arg fun n => arg fun f => by
      dsimp only
      split
      · exact .refl _
      · split
        · exact .refl _
        · exact lane n _
  case laneMotion => exact next_eq hx ▸ run fun c => arg fun n => lane n _
  case take => exact next_eq hx ▸ run fun c => maskEffect_order c _ _
  case start => exact next_eq hx ▸ run fun c => maskEffect_order c _ _
  case stop => exact next_eq hx ▸ run fun c => arg fun a => maskEffect_order c _ a
  case hold => exact next_eq hx ▸ run fun c => maskEffect_order c _ _
  case resume => exact next_eq hx ▸ run fun c => maskEffect_order c _ _
  case restore => exact next_eq hx ▸ run fun c => restoreEffect_order c _
  case enqueue =>
    exact next_eq hx ▸ run fun c => arg fun n => arg fun next => arg fun i => by
      split
      · exact .refl _
      · split
        · exact .refl _
        · split
          · exact .refl _
          · exact lane n _
  case dequeue =>
    exact next_eq hx ▸ run fun c => arg fun n => arg fun i => by
      split
      · exact lane n _
      · exact .refl _
  case clear =>
    exact next_eq hx ▸ run fun c => arg fun n => by
      split
      · exact lane n _
      · exact .refl _
  case itemDefine => exact next_eq hx ▸ run fun c => itemDefineEffect_order c _
  case itemDrop => exact next_eq hx ▸ run fun c => itemDropEffect_order c _
  case textSegment => exact next_eq hx ▸ run fun c => textSegmentEffect_order c _
  case styleColors => exact next_eq hx ▸ run fun c => arg fun k => .setPendingStyle _ k _
  case styleForm => exact next_eq hx ▸ run fun c => styleFormEffect_order c _
  case clockSet => exact next_eq hx ▸ run fun c => arg fun x => .of_parts rfl rfl
  case scheduleSet => exact next_eq hx ▸ run fun c => scheduleSetEffect_order c _
  case scheduleClear => exact next_eq hx ▸ run fun c => scheduleClearEffect_order c _
  case cueSet => exact next_eq hx ▸ run fun c => arg fun a => .of_parts rfl rfl
  case cueoutLevel =>
    exact next_eq hx ▸ run fun c => arg fun ops => by
      split
      · exact .refl _
      · exact .of_parts rfl rfl
  case eventMask => exact next_eq hx ▸ run fun c => arg fun fill => .of_parts rfl rfl
  case eventAck => exact next_eq hx ▸ run fun c => .of_parts rfl rfl
  case reinit => exact next_eq hx ▸ run fun c => .clearProgram _
  case reload => exact next_eq hx ▸ hquiet.runReload
  case badCommand => exact next_eq hx ▸ run fun c => .refl _
  case systemWrite w => exact next_eq hx ▸ ite (fun _ => .takeWaiting _ hquiet) hquiet
  case systemRead r => exact next_eq hx ▸ ite (fun _ => .takeWaiting _ hquiet) hquiet
  case heldWriteRelease => exact next_eq hx ▸ ite (fun hdue => hquiet.releaseHeld hdue) hquiet
  case stallLimitExpiry => exact next_eq hx ▸ ite (fun _ => hquiet) hquiet.expireHeld
  case abortAnswer => exact next_eq hx ▸ ite (fun hmay => hquiet.abortNext hmay) hquiet
  case resultWrite scanWaits sysWaits =>
    exact next_eq hx ▸ ite (fun _ => hquiet.of_frame (.writeResult _)) hquiet
  case writeBackDrain reply => exact next_eq hx ▸ ite (fun _ => h.drain) hquiet
  case reportWrite scanWaits sysWaits more =>
    exact next_eq hx ▸ ite (fun _ => hquiet.of_frame (.writeReport _ _)) hquiet
  case scanRead addr burst levels order =>
    refine next_eq hx ▸ ite (fun _ => ?_) hquiet
    dsimp only
    have driven := hquiet.of_frame
      (t := { s.quiet with pins := { s.pins with cueIn := levels } }.emit
        (.memRead .scan addr burst.len burst.size)) (.of_parts rfl rfl)
    split
    · exact ite (fun _ => driven.of_frame (.handLine _ _ _)) driven
    · exact driven
  case scanBeat index words reply =>
    refine next_eq hx ▸ ite (fun _ => ?_) hquiet
    cases reply <;> exact hquiet.of_frame (.of_parts rfl rfl)
  case scanWrite addr => exact next_eq hx ▸ ite (fun _ => hquiet.of_frame (.of_parts rfl rfl)) hquiet
  case fieldStart parity order =>
    have head : (s.quiet.fieldHead parity).Orderly := hquiet.of_frame (.of_parts rfl rfl)
    exact next_eq hx ▸
      ite (fun _ => ite (fun _ => head.of_frame (.fieldShares _ order)) head) hquiet
  case passLimitReached n =>
    exact next_eq hx ▸
      ite (fun _ => hquiet.of_frame ((lane n _).trans (.of_fire (.raiseIf _ _ _)))) hquiet
  case pageEnd n =>
    exact next_eq hx ▸ ite (fun _ => hquiet.of_frame ((State.OrderFrame.laneStep _ n _).trans
      ((State.OrderFrame.laneStep _ n _).trans (.laneStep _ n _)))) hquiet
  case holdExpiry n k => exact next_eq hx ▸ ite (fun _ => hquiet.of_frame (lane n _)) hquiet
  case fadeOutEnd n => exact next_eq hx ▸ ite (fun _ => hquiet.of_frame (.of_parts rfl rfl)) hquiet
  case secondTick => exact next_eq hx ▸ ite (fun _ => hquiet.of_frame (.accumulate _)) hquiet
  case killLatchSet =>
    have low : State.Orderly { s.quiet with pins := { s.pins with killN := false } } :=
      hquiet.of_frame (.of_parts rfl rfl)
    exact next_eq hx ▸
      ite (fun _ => ite (fun _ => low.of_frame (.killFall _)) low) hquiet
  case powerOnReset => exact next_eq hx ▸ s.orderly_powerOn
  case resetRelease x killN => exact next_eq hx ▸ ite (fun _ => hquiet) (hquiet.releaseReset x killN)
  case busFreeStart => exact next_eq hx ▸ ite (fun _ => hquiet.of_frame (.of_parts rfl rfl)) hquiet
  case imageByteReceived b x => exact next_eq hx ▸ ite (fun _ => (straps x).receiveByte b) hquiet
  case noDevice x => exact next_eq hx ▸ ite (fun _ => (straps x).failLoad _) hquiet
  case arbitrationLost => exact next_eq hx ▸ ite (fun _ => hquiet.of_frame (.of_parts rfl rfl)) hquiet
  case busTimeout x => exact next_eq hx ▸ ite (fun _ => hquiet) ((straps x).failLoad _)
  case killNRise => exact next_eq hx ▸ hquiet.of_frame (.of_parts rfl rfl)

/-- Settles O59: the queues change by completions, answers and appended commands alone, each where there
is room, and the stores by writes and clearings that keep their form. -/
theorem intakeAndStoreLawsKept : Obligations.IntakeAndStoreLawsKept := by
  intro s t hintake hstore hx
  have h : s.Orderly := s.orderly_iff.mpr ⟨hintake, hstore⟩
  refine t.orderly_iff.mp ?_
  cases hp : s.pending with
  | nil =>
    rw [step_of_idle hp] at hx
    exact next_eq hx ▸ h
  | cons c rest =>
    rw [step_of_pending hp] at hx
    exact State.Orderly.exec (s := { s with pending := rest }) (h.of_frame (.of_parts rfl rfl)) hx

end Sys2Proof.Machine

/-! ## Completions, RELOAD and its ABORTED answers (R148 to R150, R157, R170, R171) -/

namespace Sys2Proof.Machine

/-! ### Completion and BAD_COMMAND (R148, R149, R157) -/

/-- R157: CMD_ERROR, event bit 0, is set by a result other than OK. -/
theorem getLsbD_cmdError (r : ResultCode) (b : Fin 19) :
    (if r = .ok then 0 else Event.bit .cmdError).getLsbD b.val = (b.val == 0 && r != .ok) := by
  have hbit : ∀ b : Fin 19, (Event.bit .cmdError).getLsbD b.val = (b.val == 0) := by decide
  by_cases hr : r = .ok
  · rw [if_pos hr, hr]
    exact BitVec.getLsbD_zero.trans (Bool.and_false _).symm
  · rw [if_neg hr, hbit, bne_iff_ne.mpr hr, Bool.and_true]

/-- Settles O4: all that a completion changes, by its equation; a code outside the 25 is BAD_COMMAND's. -/
theorem completionAndBadCommand : Obligations.CompletionAndBadCommand := by
  refine ⟨fun s e rest r hqueue hwf => ?complete, fun s e code hx hcode => ?bad⟩
  case complete =>
    have hput := Store.get_put (k := e.slot) (v := { s.slot e.slot with inFlight := false }) hwf
    have heq := s.complete_eq e r
    rw [hqueue] at heq
    refine ⟨_, heq, rfl, ?_, fun n hn => ?_, rfl, fun b => ?_, rfl⟩
    · exact (hput e.slot).trans (if_pos rfl)
    · exact (hput n).trans (if_neg hn)
    · rw [← getLsbD_cmdError r b]
      exact BitVec.getLsbD_or
  case bad =>
    have ⟨_, hcode', _⟩ := hx
    have hmine : (!commandCodes.contains e.command.code) = true := by
      rw [hcode', Bool.not_eq_true', List.contains_eq_mem]
      exact decide_eq_false hcode
    refine congrArg Host.Outcome.next ?_
    unfold State.runIf
    rw [hx.nextCommand]
    exact if_pos hmine

/-! ### The entry to LOADING (R150, R165, R170) -/

/-- R150: every slot but the RELOAD's own is FREE, and every assembly zero. -/
theorem State.slot_enterLoading {s : State} {e : IntakeEntry} (hq : s.intake.queue = [e]) (n : Nat) :
    s.enterLoading.slot n =
      { inFlight := n == e.slot, lo := List.replicate 16 0, hi := List.replicate 16 0 } := by
  have hslots : s.clearProgram.intake.clearSlots.slots = Store.put CommandSlot.initial [] e.slot
      { CommandSlot.initial with inFlight := true } := by
    simp only [Intake.clearSlots, State.clearProgram, hq]
  rw [State.enterLoading_eq]
  unfold State.slot
  rw [hslots, Store.get_put rfl]
  by_cases hn : n = e.slot
  · simp only [hn, if_true, beq_self_eq_true]
    rfl
  · rw [if_neg hn, beq_eq_false_iff_ne.mpr hn]
    rfl

/-- R131, R170: a cue input keeps its sampling state alone. -/
theorem State.input_enterLoading (s : State) (n : Fin 4) :
    s.enterLoading.cue.inputs.get n =
      { filter := false, edge := .rise, action := .none, mask := 0, capture := Capture.initial
        last := (s.cue.inputs.get n).last, run := (s.cue.inputs.get n).run
        accepted := (s.cue.inputs.get n).accepted } := by
  rw [State.enterLoading_eq]
  match n with
  | 0 => rfl
  | 1 => rfl
  | 2 => rfl
  | 3 => rfl

/-- R158, R170: with the event bits clear ATTN is low. -/
theorem State.attn_enterLoading (s : State) : s.enterLoading.attn = false := by
  have hclear : ((0 : BitVec 19) &&& 0 != 0) = false := by decide
  rw [State.enterLoading_eq]
  exact hclear

theorem State.lane_enterLoading (s : State) (n : Fin 4) : s.enterLoading.lane n = Lane.initial := by
  rw [State.enterLoading_eq]
  exact Four.get_all _ n

/-! ### RELOAD (R148, R150, R171) -/

theorem State.reloadRefused_iff (s : State) :
    s.reloadRefused = true ↔ s.device = .active ∧ ∃ n : Fin 4, (s.lane n).state ≠ .off := by
  simp only [State.reloadRefused, Bool.and_eq_true, beq_iff_eq, List.any_eq_true, Four.mem_toList,
    bne_iff_ne, State.lane]
  exact and_congr_right fun _ => ⟨fun ⟨_, ⟨n, hn⟩, h⟩ => ⟨n, hn ▸ h⟩, fun ⟨n, h⟩ => ⟨_, ⟨n, rfl⟩, h⟩⟩

/-- Settles O19: by the refusal, the commands behind it, and the entry to LOADING. -/
theorem reloadCommand : Obligations.ReloadCommand := by
  intro s e rest hqueue hcode hreset hdevice hreload hroom hheld
  have hmay : s.quiet.mayExecute = true := by
    have hheld' : s.quiet.heldFirst = false := hheld
    simp [State.mayExecute, hreset, hdevice, hreload, hroom, hheld', Config.writeBackDepth]
  have hnext : s.quiet.nextCommand = some e :=
    State.nextCommand_eq_some.mpr ⟨hmay, congrArg List.head? hqueue, .inr hcode⟩
  have hrun : exec .reload s = .next (if s.quiet.reloadRefused = true then s.quiet.complete e .badState
      else s.quiet.acceptReload) := by
    refine congrArg Host.Outcome.next ?_
    unfold State.runReload
    rw [hnext]
    exact if_neg (not_not_intro hcode)
  have hrefused := s.quiet.reloadRefused_iff
  have hqueue' : s.quiet.intake.queue = e :: rest := hqueue
  refine ⟨fun h => ?refused, fun h hrest => ?behind, fun h hrest => ?alone⟩
  case refused => rw [hrun, if_pos (hrefused.mpr h)]
  case behind =>
    rw [hrun, if_neg (mt hrefused.mp h), State.acceptReload, hqueue', List.tail_cons,
      if_neg (mt List.isEmpty_iff.mp hrest)]
    rfl
  case alone =>
    have hsingle : s.quiet.intake.queue = [e] := hqueue'.trans (congrArg (e :: ·) hrest)
    rw [hrun, if_neg (mt hrefused.mp h), State.acceptReload, hsingle]
    refine ⟨s.quiet.enterLoading, rfl, ?_⟩
    have heq := s.quiet.enterLoading_eq
    have hslots := State.slot_enterLoading hsingle
    have hlanes := s.quiet.lane_enterLoading
    have hinputs := s.quiet.input_enterLoading
    have hattn := s.quiet.attn_enterLoading
    generalize s.quiet.enterLoading = t at heq hslots hlanes hinputs hattn ⊢
    subst heq
    exact ⟨rfl, rfl, hlanes, fun _ => rfl, fun _ => rfl, fun _ => rfl, fun _ => rfl,
      fun _ => ⟨rfl, rfl⟩, hinputs, hslots, hsingle, rfl, rfl, rfl, rfl, hattn, rfl, rfl, rfl, rfl, rfl,
      rfl, rfl, rfl, rfl, rfl, rfl, rfl, rfl⟩

end Sys2Proof.Machine

namespace Sys2Proof.Machine

/-! ### The ABORTED answers (R150, R156) -/

/-- Settles O24: an ABORTED answer, and behind the last one the entry to LOADING. -/
theorem abortAnswers : Obligations.AbortAnswers := by
  intro s r e rest hreset hreload hqueue htaken s1
  have hmay : s.quiet.mayAbort = true := by
    have hroom : s.quiet.resultRoom = true := s.quiet.resultRoom_iff.mpr htaken
    simp [State.mayAbort, hreset, hreload, hroom]
  have hexec : exec .abortAnswer s =
      .next (if rest.isEmpty = true then s1.enterLoading else s1) := by
    refine congrArg Host.Outcome.next ((if_pos hmay).trans ?_)
    unfold State.abortNext
    rw [show s.quiet.intake.queue = r :: e :: rest from hqueue]
    rfl
  refine ⟨fun hrest => ?more, fun hrest => ?last⟩
  case more => rw [hexec, if_neg (mt List.isEmpty_iff.mp hrest)]
  case last =>
    have hs1 : s1 = _ := State.handOver_eq _ _
    have hsingle : s1.intake.queue = [r] := by rw [hs1, hrest]
    have hslots := State.slot_enterLoading hsingle
    have hlanes := s1.lane_enterLoading
    have hinputs := s1.input_enterLoading
    have hattn := s1.attn_enterLoading
    have heq := s1.enterLoading_eq
    rw [hexec, if_pos (List.isEmpty_iff.mpr hrest)]
    refine ⟨s1.enterLoading, rfl, ?_⟩
    generalize s1.enterLoading = t at heq hslots hlanes hinputs hattn ⊢
    rw [hs1] at heq hinputs hsingle ⊢
    subst heq
    exact ⟨rfl, rfl, hsingle, rfl, rfl, rfl, hslots, rfl, rfl, hattn, hlanes, fun _ => rfl,
      fun _ => rfl, fun _ => rfl, fun _ => rfl, fun _ => ⟨rfl, rfl⟩, hinputs, rfl⟩

/-! ### A load that fails (R149, R164, R167 to R169) -/

/-- R167: the loader stops if it holds the bus, and releases both lines. -/
theorem State.endBus_eq (s : State) (h : s.loader.bus ≠ .idle) :
    s.endBus = { s with out := s.out ++
      if s.loader.bus = .waiting then [.i2cRelease] else [.i2cStop, .i2cRelease] } := by
  unfold State.endBus
  cases hbus : s.loader.bus with
  | idle => exact absurd hbus h
  | waiting => rfl
  | addressing | reading => exact congrArg (fun o => { s with out := o }) (List.append_assoc ..)

/-- R164, R166, R169: what a failed load leaves, before a waiting RELOAD is answered: the loader stops if
it holds the bus and releases both lines, and the straps are in force. -/
def State.failedUnder (s : State) (straps : Straps) (why : LoadReason) : State :=
  State.loadFailed
    { s with
      out := if s.loader.bus = .waiting then [.i2cRelease] else [.i2cStop, .i2cRelease]
      pins := { s.pins with straps := straps } } why

/-- R167, R169: a failure on the bus ends the load under the straps read with it. -/
theorem State.failLoad_readStraps {s : State} (h : s.loader.bus ≠ .idle) (straps : Straps)
    (why : LoadReason) : (s.quiet.readStraps straps).failLoad why =
      (s.failedUnder straps why).completeReload why.result := by
  rw [State.failLoad, State.endBus_eq (s.quiet.readStraps straps) h, State.loadFail_eq]
  rfl

/-- R168, R169: a byte with which the scan of the image fails ends the load. -/
theorem exec_imageByteReceived_of_fail {s : State} {b : Byte} {why : LoadReason} (straps : Straps)
    (hbus : s.loader.bus = .addressing ∨ s.loader.bus = .reading)
    (hfail : scanImage (s.loader.staging ++ [b]) = .fail why) :
    exec (.imageByteReceived b straps) s =
      .next ((s.failedUnder straps why).completeReload why.result) := by
  have hwait : s.loader.bus ≠ .waiting := by rcases hbus with e | e <;> rw [e] <;> nofun
  have hafter : (s.staged b straps).afterByte = (s.staged b straps).failLoad why := by
    unfold State.afterByte
    rw [show scanImage (s.staged b straps).loader.staging = .fail why from hfail]
  rw [exec_imageByteReceived b straps hbus, hafter, State.failLoad, State.endBus_of_reading rfl,
    State.loadFail_eq, State.failedUnder, if_neg hwait]
  rfl

/-- Settles O50: the three failures leave one state, from which a waiting RELOAD is answered. -/
theorem loadFails : Obligations.LoadFails := by
  intro s i straps why h
  have hexec : exec i s = .next ((s.failedUnder straps why).completeReload why.result) := by
    rcases h with ⟨rfl, rfl, hbus⟩ | ⟨rfl, rfl, hbus⟩ | ⟨b, rfl, hbus, hfail⟩
    · exact congrArg Host.Outcome.next
        ((if_pos hbus).trans (State.failLoad_readStraps (hbus ▸ nofun) straps _))
    · exact congrArg Host.Outcome.next ((if_neg hbus).trans (State.failLoad_readStraps hbus straps _))
    · exact exec_imageByteReceived_of_fail straps hbus hfail
  refine ⟨s.failedUnder straps why, rfl, ?attn, rfl, rfl, ?conf, fun n => Four.get_all _ n, rfl, rfl, rfl,
    fun hnone => ?alone, fun e rest hwaits hqueue => ?reload⟩
  case attn =>
    have hbit : ((s.rep.events ||| 0x40000) &&& (s.rep.mask ||| 0x40000)).getLsbD 18 = true := by
      rw [BitVec.getLsbD_and, BitVec.getLsbD_or, BitVec.getLsbD_or]
      simp
    refine bne_iff_ne.mpr fun hzero => ?_
    rw [show (s.rep.events ||| 0x40000) &&& (s.rep.mask ||| 0x40000) = 0 from hzero] at hbit
    cases hbit
  case conf =>
    rw [← strapAnchor_eq]
    rfl
  case alone => rw [hexec, State.completeReload_of_none (s := s.failedUnder straps why) hnone]
  case reload =>
    rw [hexec, State.completeReload_of_waiting (s := s.failedUnder straps why) hwaits hqueue]
    cases why <;> rfl

end Sys2Proof.Machine

/-! ## The part's own writes (R149, R155, R156, R162; notes/assumptions/6.md, 25.md) -/

namespace Sys2Proof.Machine

/-! ### The head result (R149, R156, 12.2) -/

/-- R155: with a scan read or a system-port transaction waiting, the own-write source is not granted. -/
theorem grant_ne_own {scan sys : Bool} (h : scan = true ∨ sys = true) (own : Bool) :
    (grant scan sys own == some .own) = false := by
  rcases h with rfl | rfl
  · rfl
  · cases scan <;> rfl

theorem State.writeResult_eq {s : State} {r : ResultWord} {rest : List ResultWord}
    (h : s.own.writeBack = r :: rest) :
    s.writeResult = { s with
      out := s.out ++ [.memWrite .own 4 [resultBeat s.conf.anchor r]]
      own := { s.own with headWritten := true } } := by
  simp only [State.writeResult, h]
  rfl

/-- R149: the result beat of a slot is on the half that holds word 6. -/
theorem resultBeat_addr {anchor : Word} {r : ResultWord} (hfit : anchor.toNat + 65536 ≤ 4294967296)
    (hbase : anchor.toNat % 65536 = 0) (hslot : r.slot < 64) :
    (resultBeat anchor r).addr = anchor.toNat + 32 * r.slot + 16 := by
  have hindex : (resultBeat anchor r).addr =
      16 * ((anchor.toNat + (32 * r.slot + 16)) / 16 % 2 ^ 28) := by
    rw [Beat.addr, resultBeat, beatIndex, BitVec.toNat_ofNat]
  rw [hindex]
  omega

/-- A word in the third place of a beat, read there. -/
theorem extractLsb'_third (w : Word) {k n : Nat} (h : k + n ≤ 32) :
    (w.setWidth 128 <<< 64).extractLsb' (64 + k) n = w.extractLsb' k n := by
  refine BitVec.eq_of_getLsbD_eq fun i hi => ?_
  have hplace : 64 + k + i < 128 := by omega
  have hlow : ¬ 64 + k + i < 64 := by omega
  have hrest : 64 + k + i - 64 = k + i := by omega
  have hsmall : k + i < 128 := by omega
  simp only [BitVec.getLsbD_extractLsb', BitVec.getLsbD_shiftLeft, BitVec.getLsbD_setWidth, hi, hplace,
    hlow, hrest, hsmall, decide_true, decide_false, Bool.not_false, Bool.true_and]

/-- 12.2: code, result code and tag of a result word, from the lowest bit. -/
theorem ResultWord.word_fields (r : ResultWord) :
    r.word.extractLsb' 0 8 = r.code ∧ r.word.extractLsb' 8 8 = BitVec.ofNat 8 r.result.code ∧
      r.word.extractLsb' 16 16 = r.tag := by
  unfold ResultWord.word
  refine ⟨?_, ?_, ?_⟩
  · rw [BitVec.extractLsb'_append_eq_of_add_le (by decide), BitVec.extractLsb'_eq_self]
  · rw [BitVec.extractLsb'_append_eq_of_le (by decide),
      BitVec.extractLsb'_append_eq_of_add_le (by decide), BitVec.extractLsb'_eq_self]
  · rw [BitVec.extractLsb'_append_eq_of_le (by decide), BitVec.extractLsb'_append_eq_of_le (by decide),
      BitVec.extractLsb'_eq_self]

/-! ### The report block (R161, R162) -/

/-- R162: beat `j` of a report's words from beat number `i` on. -/
def reportBeat (anchor : Word) (i : Nat) (ws : List Word) (j : Nat) : Beat :=
  { index := BitVec.ofNat 28 ((anchor.toNat + 0x800 + 16 * (i + j)) / 16), low := 0
    data := ws.getD (4 * j + 3) 0 ++ ws.getD (4 * j + 2) 0 ++ ws.getD (4 * j + 1) 0 ++
      ws.getD (4 * j) 0
    enables := 0xFFFF }

theorem fullBeat_eq (anchor : Word) (i : Nat) (ws : List Word) :
    fullBeat (beatIndex anchor (0x800 + 16 * i)) (ws.take 4) = reportBeat anchor i ws 0 := by
  simp [fullBeat, reportBeat, beatIndex, List.getD_eq_getElem?_getD, Nat.add_assoc]

/-- Behind the first beat of a report's words come the beats of the others. -/
theorem reportBeat_drop (anchor : Word) (i : Nat) (ws : List Word) (j : Nat) :
    reportBeat anchor (i + 1) (ws.drop 4) j = reportBeat anchor i ws (j + 1) := by
  have hat : ∀ k, (ws.drop 4).getD k 0 = ws.getD (k + 4) 0 := fun k => by
    simp [List.getD_eq_getElem?_getD, Nat.add_comm]
  have hnext : i + 1 + j = i + (j + 1) := by omega
  simp only [reportBeat, hat, hnext, Nat.mul_succ, Nat.add_right_comm _ _ 4]

/-- R162: the beats of a report block, each of four words, in ascending address order. -/
theorem reportBeats_eq (anchor : Word) : ∀ (n i left : Nat) (ws : List Word),
    ws.length = 4 * left →
      reportBeats anchor n i ws = (List.range (min left n)).map (reportBeat anchor i ws)
  | 0, _, left, _, _ => by rw [Nat.min_zero]; rfl
  | n + 1, i, 0, ws, h => by
    rw [List.length_eq_zero_iff.mp h, Nat.zero_min]
    rfl
  | n + 1, i, left + 1, ws, h => by
    have hrest : (ws.drop 4).length = 4 * left := by rw [List.length_drop]; omega
    have hsome : ¬ ws.isEmpty = true := fun hnil => by
      rw [List.isEmpty_iff.mp hnil, List.length_nil] at h
      omega
    have hbeats : reportBeats anchor (n + 1) i ws =
        reportBeat anchor i ws 0 :: reportBeats anchor n (i + 1) (ws.drop 4) := by
      rw [← fullBeat_eq]
      exact if_neg hsome
    rw [hbeats, reportBeats_eq anchor n (i + 1) left _ hrest, Nat.succ_min_succ,
      List.range_succ_eq_map, List.map_cons, List.map_map]
    exact congrArg _ (List.map_congr_left fun j _ => reportBeat_drop anchor i ws j)

/-- R162, R155: a transaction of up to four beats; behind the last beat the report is done. -/
theorem State.writeReport_eq {s : State} {r : Report} {rest : List Report} {left n : Nat}
    (h : s.own.reports = r :: rest) (hlen : r.words.length = 4 * left) (hleft : 0 < left) (hn : 0 < n) :
    s.writeReport n = { s with
      out := s.out ++ [.memWrite .own 4
        ((List.range (min left n)).map (reportBeat r.anchor r.next r.words))]
      own := { s.own with
        reports := if (min left n) = left then rest else
          { r with next := r.next + min left n, words := r.words.drop (4 * min left n) } :: rest } } := by
  have hsome : ¬ ((List.range (min left n)).map (reportBeat r.anchor r.next r.words)).isEmpty = true := by
    simp only [List.isEmpty_iff, List.map_eq_nil_iff, List.range_eq_nil]
    omega
  have hreports : (if (r.words.drop (4 * n)).isEmpty = true then rest
      else { r with next := r.next + n, words := r.words.drop (4 * n) } :: rest) =
      if min left n = left then rest
      else { r with next := r.next + min left n, words := r.words.drop (4 * min left n) } :: rest := by
    have hdone : (r.words.drop (4 * n)).isEmpty = true ↔ min left n = left := by
      rw [List.isEmpty_iff, List.drop_eq_nil_iff, hlen]
      omega
    by_cases hlast : min left n = left
    · rw [if_pos hlast, if_pos (hdone.mpr hlast)]
    · rw [if_neg hlast, if_neg (mt hdone.mp hlast), show min left n = n by omega]
  simp only [State.writeReport, h, reportBeats_eq r.anchor n r.next left r.words hlen, hreports]
  exact if_neg hsome

/-- Settles O26: the head result, its removal, and the next beats of a report, by the arbiter's grant. -/
theorem ownWriteCommands : Obligations.OwnWriteCommands := by
  unfold Obligations.OwnWriteCommands
  intro code
  refine ⟨⟨fun s r rest hreset hqueue hidle hahead hfit hbase hslot => ?result,
    fun s reply hwritten => ?drain⟩, fun s r rest left more hreset hreports hahead hlen hleft => ?report⟩
  case result =>
    have hwaits : s.own.resultWaits = true := by
      unfold OwnWrites.resultWaits
      rw [hqueue, hidle]
      cases hr : s.own.reports with
      | nil => rfl
      | cons x xs =>
        rw [hr] at hahead
        simpa using hahead
    obtain ⟨hcode, hresult, htag⟩ := r.word_fields
    refine ⟨⟨resultBeat s.conf.anchor r, ?_, resultBeat_addr hfit hbase hslot, rfl, rfl,
      (extractLsb'_third r.word (k := 0) (by decide)).trans hcode,
      ((extractLsb'_third r.word (k := 8) (by decide)).trans hresult).trans ?_,
      (extractLsb'_third r.word (k := 16) (by decide)).trans htag⟩, fun scan sys hwait => ?_⟩
    · have hgrant : (s.pins.resetN && grant false false s.own.resultWaits == some .own) = true := by
        rw [hreset, hwaits]
        rfl
      refine congrArg Host.Outcome.next ((if_pos hgrant).trans ?_)
      exact State.writeResult_eq (s := s.quiet) hqueue
    · cases r.result <;> rfl
    · refine congrArg Host.Outcome.next (if_neg ?_)
      rw [grant_ne_own hwait, Bool.and_false]
      exact Bool.false_ne_true
  case drain => exact congrArg Host.Outcome.next (if_pos hwritten)
  case report =>
    have hmin : (if left < more.val + 1 then left else more.val + 1) = min left (more.val + 1) := by
      split <;> omega
    dsimp only
    rw [hmin]
    refine ⟨?_, fun scan sys hwait => ?_⟩
    · have hgrant : (s.pins.resetN && grant false false s.own.reportWaits == some .own) = true := by
        simp only [OwnWrites.reportWaits, hreset, hreports, hahead, Nat.zero_le, decide_true]
        rfl
      refine congrArg Host.Outcome.next ((if_pos hgrant).trans ?_)
      exact State.writeReport_eq (s := s.quiet) hreports hlen hleft (Nat.succ_pos _)
    · refine congrArg Host.Outcome.next (if_neg ?_)
      rw [grant_ne_own hwait, Bool.and_false]
      exact Bool.false_ne_true

end Sys2Proof.Machine

/-! ## What the system port does apart from what it has driven and what waits (R144, R153) -/

namespace Sys2Proof.Machine

/-! ### Beats and the port (R51, R141, R144) -/

/-- A state with other events driven and another port: the beats of a transaction read neither. -/
def State.atPort (s : State) (out : List PortEvent) (port : SysPort) : State :=
  { s with out := out, port := port }

/-- What came of beats, with other events driven and another port. -/
def Taken.atPort (t : Taken) (out : List PortEvent) (port : SysPort) : Taken :=
  { t with state := t.state.atPort out port }

section
variable (s : State) (out : List PortEvent) (port : SysPort)

theorem State.closes_atPort (b : Beat) : (s.atPort out port).closes b = s.closes b := rfl

theorem State.closingCommand_atPort (n : Nat) (b : Beat) :
    (s.atPort out port).closingCommand n b = s.closingCommand n b := rfl

theorem State.decideClosing_atPort (n : Nat) (c : Command) :
    (s.atPort out port).decideClosing n c = s.decideClosing n c := rfl

theorem State.decideAgain_atPort (need : HoldNeed) (n : Nat) (c : Command) :
    (s.atPort out port).decideAgain need n c = s.decideAgain need n c := rfl

theorem State.monitor_atPort (b : Beat) :
    (s.atPort out port).monitor b = (s.monitor b).atPort out port := by
  unfold State.monitor State.atPort
  dsimp only
  split
  · split <;> rfl
  · split <;> rfl
  · rfl

theorem State.settle_atPort (n : Nat) (c : Command) (d : Decision) :
    (s.atPort out port).settle n c d = (s.settle n c d).atPort out port := by
  cases d with
  | answer r =>
    simp only [State.settle, State.handOver_eq]
    rfl
  | append | discard | hold => rfl

theorem State.takeBeats_atPort : ∀ (bs : List Beat) (s : State),
    (s.atPort out port).takeBeats bs = (s.takeBeats bs).atPort out port
  | [], _ => rfl
  | b :: bs, s => by
    have ih := fun u => State.takeBeats_atPort bs u
    cases hc : s.closes b with
    | none =>
      simp only [State.takeBeats, State.closes_atPort, hc, State.monitor_atPort, ih]
      rfl
    | some n =>
      cases hd : s.decideClosing n (s.closingCommand n b) with
      | hold need =>
        simp only [State.takeBeats, State.closes_atPort, hc, State.closingCommand_atPort,
          State.decideClosing_atPort, hd]
        rfl
      | append | answer | discard =>
        simp only [State.takeBeats, State.closes_atPort, hc, State.closingCommand_atPort,
          State.decideClosing_atPort, hd, State.monitor_atPort, State.settle_atPort, ih]
        rfl

end

/-! ### How a held write ends (R144, R145, R147) -/

/-- What the release of a held write and the expiry of its limit have in common: the first beat is held
again or dealt with, the beats behind it are taken as a write's are, and nothing depends on what the port
has driven or on what waits at it. -/
structure HeldEnd (f : State → List Beat → Taken) : Prop where
  first  : ∀ s b,
    (∃ need, ∀ bs, f s (b :: bs) = { state := s, passed := [], rest := some (b :: bs, need) }) ∨
    ∃ u : State, ∀ bs, f s (b :: bs) =
      { u.takeBeats bs with passed := b :: (u.takeBeats bs).passed }
  atPort : ∀ s out port bs, f (s.atPort out port) bs = (f s bs).atPort out port

theorem heldEnd_release (need : HoldNeed) : HeldEnd fun s bs => s.releaseBeats need bs where
  first := fun s b => by
    cases hc : s.closes b with
    | none => exact .inr ⟨s.monitor b, fun bs => by simp only [State.releaseBeats, hc]⟩
    | some n =>
      cases hd : s.decideAgain need n (s.closingCommand n b) with
      | hold need' => exact .inl ⟨need', fun bs => by simp only [State.releaseBeats, hc, hd]⟩
      | append | answer | discard =>
        exact .inr ⟨(s.monitor b).settle n (s.closingCommand n b)
          (s.decideAgain need n (s.closingCommand n b)), fun bs => by
            simp only [State.releaseBeats, hc, hd]⟩
  atPort := fun s out port bs => by
    cases bs with
    | nil => rfl
    | cons b bs =>
      cases hc : s.closes b with
      | none =>
        simp only [State.releaseBeats, State.closes_atPort, hc, State.monitor_atPort,
          State.takeBeats_atPort]
        rfl
      | some n =>
        cases hd : s.decideAgain need n (s.closingCommand n b) with
        | hold need' =>
          simp only [State.releaseBeats, State.closes_atPort, hc, State.closingCommand_atPort,
            State.decideAgain_atPort, hd]
          rfl
        | append | answer | discard =>
          simp only [State.releaseBeats, State.closes_atPort, hc, State.closingCommand_atPort,
            State.decideAgain_atPort, hd, State.monitor_atPort, State.settle_atPort,
            State.takeBeats_atPort]
          rfl

theorem heldEnd_expire : HeldEnd State.expireBeats where
  first := fun s b => by
    cases hc : s.closes b with
    | none => exact .inr ⟨s.monitor b, fun bs => by simp only [State.expireBeats, hc]⟩
    | some n =>
      exact .inr ⟨(s.monitor b).discard (s.closingCommand n b).tag, fun bs => by
        simp only [State.expireBeats, hc]⟩
  atPort := fun s out port bs => by
    cases bs with
    | nil => rfl
    | cons b bs =>
      cases hc : s.closes b with
      | none =>
        simp only [State.expireBeats, State.closes_atPort, hc, State.monitor_atPort,
          State.takeBeats_atPort]
        rfl
      | some n =>
        have hlost : ((s.monitor b).atPort out port).discard (s.closingCommand n b).tag =
            ((s.monitor b).discard (s.closingCommand n b).tag).atPort out port := rfl
        simp only [State.expireBeats, State.closes_atPort, hc, State.monitor_atPort,
          State.closingCommand_atPort, hlost, State.takeBeats_atPort]
        rfl

/-- The end of a held write leaves what the ports have driven, and the port. -/
theorem HeldEnd.port {f : State → List Beat → Taken} (hf : HeldEnd f) (s : State) (bs : List Beat) :
    (f s bs).state.out = s.out ∧ (f s bs).state.port = s.port := by
  have h := hf.atPort s s.out s.port bs
  rw [show s.atPort s.out s.port = s from rfl] at h
  rw [h]
  exact ⟨rfl, rfl⟩

/-- R144: a held write ends: its beats by `f`, and then the transactions that waited. -/
def State.endHeld (s : State) (f : State → List Beat → Taken) (h : Held) : State :=
  ((f s.dropHeld h.beats).pass h.size h.priorErr h.replies).resumePort

/-- R144, R147: whether there is room of the kind that a held write waits for. -/
def State.roomFor (s : State) : HoldNeed → Bool
  | .intakeRoom => decide (s.intake.queue.length < 64)
  | .resultRoom => decide (s.writeBackTaken < 16)

theorem State.heldDue_eq {s : State} {h : Held} (hheld : s.port.held = some h) :
    s.heldDue = s.roomFor h.need := by
  simp only [State.heldDue, hheld]
  cases h.need <;> rfl

theorem exec_heldWriteRelease_of_held {s : State} {h : Held} (hheld : s.port.held = some h) :
    exec .heldWriteRelease s = .next (if s.roomFor h.need = true then
      s.quiet.endHeld (fun s bs => s.releaseBeats h.need bs) h else s.quiet) := by
  have hrelease : s.quiet.releaseHeld = s.quiet.endHeld (fun s bs => s.releaseBeats h.need bs) h := by
    unfold State.releaseHeld
    rw [show s.quiet.port.held = some h from hheld]
    rfl
  rw [← State.heldDue_eq hheld, ← hrelease]
  rfl

theorem exec_stallLimitExpiry_of_held {s : State} {h : Held} (hheld : s.port.held = some h) :
    exec .stallLimitExpiry s = .next (if s.roomFor h.need = true then s.quiet
      else s.quiet.endHeld State.expireBeats h) := by
  have hexpire : s.quiet.expireHeld = s.quiet.endHeld State.expireBeats h := by
    unfold State.expireHeld
    rw [show s.quiet.port.held = some h from hheld]
    rfl
  rw [← State.heldDue_eq hheld, ← hexpire]
  rfl

/-- R144, R147: by the room there is, both events leave a held write of one need as it stands, or both
parts of the rule apply whatever else the port holds. -/
theorem exec_heldEnd {i : Instr} (hi : i = .heldWriteRelease ∨ i = .stallLimitExpiry) (s : State)
    (need : HoldNeed) :
    (∀ p h, p.held = some h → h.need = need →
      exec i { s with port := p } = .next { s.quiet with port := p }) ∨
    ∃ f, HeldEnd f ∧ ∀ p h, p.held = some h → h.need = need →
      exec i { s with port := p } = .next (State.endHeld { s.quiet with port := p } f h) := by
  rcases hi with rfl | rfl
  · by_cases hroom : s.roomFor need = true
    · exact .inr ⟨_, heldEnd_release need, fun p h hh hn => by
        rw [exec_heldWriteRelease_of_held (s := { s with port := p }) hh, hn]
        exact congrArg Host.Outcome.next (if_pos hroom)⟩
    · exact .inl fun p h hh hn => by
        rw [exec_heldWriteRelease_of_held (s := { s with port := p }) hh, hn]
        exact congrArg Host.Outcome.next (if_neg hroom)
  · by_cases hroom : s.roomFor need = true
    · exact .inl fun p h hh hn => by
        rw [exec_stallLimitExpiry_of_held (s := { s with port := p }) hh, hn]
        exact congrArg Host.Outcome.next (if_pos hroom)
    · exact .inr ⟨_, heldEnd_expire, fun p h hh hn => by
        rw [exec_stallLimitExpiry_of_held (s := { s with port := p }) hh, hn]
        exact congrArg Host.Outcome.next (if_neg hroom)⟩

/-! ### The transactions that wait (R144, R153) -/

/-- The transactions that wait at the port, replaced. -/
def State.withWaiting (s : State) (ts : List SysTxn) : State :=
  { s with port := { s.port with waiting := ts } }

/-- A state that has driven further events before its own. -/
def State.after (s : State) (out : List PortEvent) : State := { s with out := out ++ s.out }

theorem State.emitWrite_eq (s : State) (src : Source) (size : BeatSize) (bs : List Beat) :
    s.emitWrite src size bs =
      { s with out := s.out ++ if bs.isEmpty then [] else [.memWrite src size bs] } := by
  unfold State.emitWrite
  split
  · rw [List.append_nil]
  · rfl

theorem Taken.pass_withWaiting (t : Taken) (size : BeatSize) (failed : Bool) (rs : List MemResp)
    (ts : List SysTxn) : Taken.pass { t with state := t.state.withWaiting ts } size failed rs =
      (t.pass size failed rs).withWaiting ts := by
  unfold Taken.pass
  simp only [State.emitWrite_eq]
  cases t.rest <;> rfl

theorem Taken.pass_after (t : Taken) (size : BeatSize) (failed : Bool) (rs : List MemResp)
    (out : List PortEvent) : Taken.pass { t with state := t.state.after out } size failed rs =
      (t.pass size failed rs).after out := by
  unfold Taken.pass
  simp only [State.emitWrite_eq, State.emit]
  cases t.rest <;> simp only [State.after, List.append_assoc]

theorem State.takeTxn_withWaiting (s : State) (ts : List SysTxn) (t : SysTxn) :
    (s.withWaiting ts).takeTxn t = (s.takeTxn t).withWaiting ts := by
  cases t with
  | write w =>
    have hbeats : (s.withWaiting ts).takeBeats w.beats =
        { s.takeBeats w.beats with state := (s.takeBeats w.beats).state.withWaiting ts } := by
      obtain ⟨hout, hport⟩ := s.takeBeats_port w.beats
      refine (State.takeBeats_atPort s.out { s.port with waiting := ts } w.beats s).trans ?_
      rw [Taken.atPort, State.atPort, State.withWaiting, hport, ← hout]
    exact (congrArg (Taken.pass · w.size false w.replies) hbeats).trans (Taken.pass_withWaiting ..)
  | read r => rfl

theorem State.takeTxn_after (s : State) (out : List PortEvent) (t : SysTxn) :
    (s.after out).takeTxn t = (s.takeTxn t).after out := by
  cases t with
  | write w =>
    have hbeats : (s.after out).takeBeats w.beats =
        { s.takeBeats w.beats with state := (s.takeBeats w.beats).state.after out } := by
      obtain ⟨hout, hport⟩ := s.takeBeats_port w.beats
      refine (State.takeBeats_atPort (out ++ s.out) s.port w.beats s).trans ?_
      rw [Taken.atPort, State.atPort, State.after, hout, ← hport]
    exact (congrArg (Taken.pass · w.size false w.replies) hbeats).trans (Taken.pass_after ..)
  | read r => simp only [State.takeTxn, State.emit, State.after, List.append_assoc]

/-- R144: while a write is held the transactions go on waiting. -/
theorem State.takeWaiting_of_held {s : State} (h : s.port.held.isSome = true) (ts : List SysTxn) :
    s.takeWaiting ts = s.withWaiting ts := by
  cases ts with
  | nil => rfl
  | cons t ts => exact if_pos h

theorem State.takeWaiting_of_free {s : State} (h : ¬ s.port.held.isSome = true) (t : SysTxn)
    (ts : List SysTxn) : s.takeWaiting (t :: ts) = (s.takeTxn t).takeWaiting ts := if_neg h

theorem State.takeWaiting_withWaiting : ∀ (us : List SysTxn) (s : State) (ts : List SysTxn),
    (s.withWaiting ts).takeWaiting us = s.takeWaiting us
  | [], _, _ => rfl
  | u :: us, s, ts => by
    by_cases h : s.port.held.isSome = true
    · rw [State.takeWaiting_of_held h, State.takeWaiting_of_held (s := s.withWaiting ts) h]
      rfl
    · rw [State.takeWaiting_of_free h, State.takeWaiting_of_free (s := s.withWaiting ts) h,
        State.takeTxn_withWaiting, State.takeWaiting_withWaiting us]

theorem State.takeWaiting_after : ∀ (us : List SysTxn) (s : State) (out : List PortEvent),
    (s.after out).takeWaiting us = (s.takeWaiting us).after out
  | [], _, _ => rfl
  | u :: us, s, out => by
    by_cases h : s.port.held.isSome = true
    · rw [State.takeWaiting_of_held h, State.takeWaiting_of_held (s := s.after out) h]
      rfl
    · rw [State.takeWaiting_of_free h, State.takeWaiting_of_free (s := s.after out) h,
        State.takeTxn_after, State.takeWaiting_after us]

/-- R144, R153: the transactions presented later are taken behind those that still wait. -/
theorem State.takeWaiting_append (us : List SysTxn) : ∀ (ts : List SysTxn) (s : State),
    s.takeWaiting (ts ++ us) =
      (s.takeWaiting ts).takeWaiting ((s.takeWaiting ts).port.waiting ++ us)
  | [], s => (State.takeWaiting_withWaiting us s []).symm
  | t :: ts, s => by
    by_cases h : s.port.held.isSome = true
    · rw [State.takeWaiting_of_held h (t :: ts), State.takeWaiting_withWaiting]
      rfl
    · rw [List.cons_append, State.takeWaiting_of_free h, State.takeWaiting_of_free h,
        State.takeWaiting_append us ts]

/-- R153: a transaction of either kind is presented. -/
theorem exec_present {s : State} (hr : s.pins.resetN = true) (u : SysTxn) :
    exec (match u with
      | .write w => .systemWrite w
      | .read r => .systemRead r) s = .next (s.quiet.present u) := by
  cases u <;> exact congrArg Host.Outcome.next (if_pos hr)

end Sys2Proof.Machine

/-! ## The beats and the transactions behind a held write (R144, R147, R153, R155) -/

namespace Sys2Proof.Machine

/-! ### The parts of a write -/

/-- R155: the beats up to one that is held again are carried to memory as one part. -/
theorem Taken.pass_of_part (s : State) (size : BeatSize) (b : Beat) (bs rest : List Beat)
    (need : HoldNeed) (failed : Bool) (rs : List MemResp) :
    Taken.pass { state := s, passed := b :: bs, rest := some (rest, need) } size failed rs =
      { s with
        out := s.out ++ [.memWrite .system size (b :: bs)]
        port := { s.port with
          held := some { size := size, beats := rest, need := need
                         priorErr := decide (failed = true ∨ rs.headD .okay = .error)
                         replies := rs.tail } } } := by
  have herr : (failed || (nextReply rs).1 == .error) = decide (failed = true ∨ rs.headD .okay = .error) := by
    cases failed <;> cases rs with
    | nil => decide
    | cons r rs => cases r <;> rfl
  have htail : (nextReply rs).2 = rs.tail := by cases rs <;> rfl
  simp only [Taken.pass, State.emitWrite, State.emit, List.isEmpty_cons, Bool.false_eq_true, if_false, herr,
    htail]

/-- R144: a write held at its first beat is held whole, and drives nothing. -/
theorem Taken.pass_of_held (s : State) (size : BeatSize) (rest : List Beat) (need : HoldNeed)
    (failed : Bool) (rs : List MemResp) :
    Taken.pass { state := s, passed := [], rest := some (rest, need) } size failed rs =
      { s with port := { s.port with
          held := some { size := size, beats := rest, need := need, priorErr := failed
                         replies := rs } } } := by
  simp only [Taken.pass, State.emitWrite, List.isEmpty_nil, if_true, beq_eq_false_iff_ne.mpr
    (show MemResp.okay ≠ MemResp.error from nofun), Bool.or_false]

theorem passBeats_cons (size : BeatSize) (b : Beat) (bs : List Beat) (failed : Bool)
    (rs : List MemResp) : passBeats size (b :: bs) failed rs =
      [.memWrite .system size (b :: bs), .sysWriteResp (if failed = true then .error else rs.headD .okay)] := by
  simp [passBeats]

/-- R155: an error in either part of a write is the write's response. -/
theorem partReply_eq (failed : Bool) (rs : List MemResp) :
    (if failed = true then .error else rs.headD .okay) =
      if failed = true ∨ rs.headD .okay = .error then MemResp.error else .okay := by
  cases failed
  · cases h : rs.headD .okay <;> simp
  · simp

/-! ### Several beats (R144, R147, R155) -/

/-- The port with nothing held and nothing waiting. -/
abbrev SysPort.free : SysPort := { held := none, waiting := [] }

section
variable {s : State} {size : BeatSize} {failed : Bool} {rs : List MemResp}

theorem Taken.pass_waiting (t : Taken) (size : BeatSize) (failed : Bool) (rs : List MemResp) :
    (t.pass size failed rs).port.waiting = t.state.port.waiting := by
  unfold Taken.pass
  rw [State.emitWrite_eq]
  cases t.rest <;> rfl

theorem Taken.pass_resumed {t : Taken} (h : t.state.port.waiting = []) :
    (t.pass size failed rs).resumePort = t.pass size failed rs := by
  have hwait := (t.pass_waiting size failed rs).trans h
  rw [State.resumePort, hwait, State.takeWaiting, ← hwait]

/-- A write that ends with all its beats passed. -/
theorem Taken.ends_all (hout : s.out = []) (hport : s.port = .free) (passed : List Beat) :
    (Taken.pass { state := s, passed := passed, rest := none } size failed rs).resumePort =
      { s with out := passBeats size passed failed rs } := by
  rw [Taken.pass_resumed (congrArg SysPort.waiting hport), Taken.pass_of_all, hout, List.nil_append]

/-- A write of which a later beat is held. -/
theorem Taken.ends_part (hout : s.out = []) (hport : s.port = .free) (b : Beat) (bs rest : List Beat)
    (need : HoldNeed) :
    (Taken.pass { state := s, passed := b :: bs, rest := some (rest, need) } size failed rs).resumePort =
      { s with
        out := [.memWrite .system size (b :: bs)]
        port := {
          held := some { size := size, beats := rest, need := need
                         priorErr := decide (failed = true ∨ rs.headD .okay = .error)
                         replies := rs.tail }
          waiting := [] } } := by
  rw [Taken.pass_resumed (congrArg SysPort.waiting hport), Taken.pass_of_part, hout, hport,
    List.nil_append]

/-- A write that is held again at its first beat. -/
theorem Taken.ends_held (hport : s.port = .free) (rest : List Beat) (need : HoldNeed) :
    (Taken.pass { state := s, passed := [], rest := some (rest, need) } size failed rs).resumePort =
      { s with port := {
          held := some { size := size, beats := rest, need := need, priorErr := failed, replies := rs }
          waiting := [] } } := by
  rw [Taken.pass_resumed (congrArg SysPort.waiting hport), Taken.pass_of_held, hport]

end

/-- R144, R155: the beats behind the one that was held are taken as a write of theirs would be, and are
carried to memory with it as one part, up to a beat that is held again. -/
theorem exec_systemWrite_behind {x y t : State} {size : BeatSize} {b : Beat} {bs : List Beat}
    {failed : Bool} {rs : List MemResp} {passed : List Beat} {rest : Option (List Beat × HoldNeed)}
    (hr : x.pins.resetN = true) (hp : x.PortFree)
    (ht : x.quiet.takeBeats bs = { state := t, passed := passed, rest := rest })
    (hy : exec (.systemWrite { size := size, beats := bs, replies := rs }) x = .next y) :
    (y.port.held = none →
      (Taken.pass { state := t, passed := b :: passed, rest := rest } size failed rs).resumePort =
        { y with out := [.memWrite .system size (b :: bs),
                         .sysWriteResp (if failed = true ∨ rs.headD .okay = .error then .error
                           else .okay)] }) ∧
    ∀ h : Held, y.port.held = some h → ∃ ahead : List Beat, bs = ahead ++ h.beats ∧
      (Taken.pass { state := t, passed := b :: passed, rest := rest } size failed rs).resumePort =
        { y with
          out := [.memWrite .system size (b :: ahead)]
          port := { held := some { h with
                      priorErr := decide (failed = true ∨ rs.headD .okay = .error), replies := rs.tail }
                    waiting := [] } } := by
  have hall := x.quiet.takeBeats_beats bs
  rw [ht] at hall
  obtain ⟨hout, hport⟩ := hp.of_takeBeats ht
  cases rest with
  | none =>
    obtain rfl : passed = bs := (List.append_nil passed).symm.trans hall
    obtain rfl := next_eq ((exec_systemWrite_of_all hr hp ht).symm.trans hy)
    refine ⟨fun _ => ?_, fun h hh => ?_⟩
    · rw [Taken.ends_all hout hport, passBeats_cons, partReply_eq]
    · rw [show t.port.held = none from congrArg SysPort.held hport] at hh
      cases hh
  | some r =>
    obtain ⟨left, need⟩ := r
    have hlong := Taken.ends_part (size := size) (failed := failed) (rs := rs) hout hport b passed left need
    cases passed with
    | nil =>
      obtain rfl := next_eq ((exec_systemWrite_of_held hr hp ht).symm.trans hy)
      refine ⟨nofun, fun h hh => ?_⟩
      obtain rfl := Option.some.inj hh
      exact ⟨[], hall.symm, hlong⟩
    | cons c passed =>
      obtain rfl := next_eq ((exec_systemWrite_of_part hr hp ht).symm.trans hy)
      refine ⟨nofun, fun h hh => ?_⟩
      obtain rfl := Option.some.inj hh
      exact ⟨c :: passed, hall.symm, hlong⟩

/-- R144, R147: where a held write of one beat is held again, the same write with beats behind it is held
again whole; else the beats behind it are taken where its own left off. -/
theorem HeldEnd.first_beat {f : State → List Beat → Taken} (hf : HeldEnd f) {s : State}
    (hout : s.out = []) (hport : s.port = .free) (size : BeatSize) (b : Beat) (failed : Bool)
    (rs : List MemResp) :
    (∃ h : Held, ((f s [b]).pass size failed rs).resumePort =
        { s with port := { held := some h, waiting := [] } } ∧
      ∀ bs, ((f s (b :: bs)).pass size failed rs).resumePort =
        { s with port := { held := some { h with beats := b :: bs }, waiting := [] } }) ∨
    ∃ u : State, u.out = [] ∧ u.port = .free ∧
      ((f s [b]).pass size failed rs).resumePort = { u with out := passBeats size [b] failed rs } ∧
      ∀ bs, f s (b :: bs) = { u.takeBeats bs with passed := b :: (u.takeBeats bs).passed } := by
  rcases hf.first s b with ⟨need, hheld⟩ | ⟨u, hpassed⟩
  · refine .inl ⟨{ size := size, beats := [b], need := need, priorErr := failed, replies := rs }, ?_,
      fun bs => ?_⟩
    · rw [hheld, Taken.ends_held hport]
    · rw [hheld, Taken.ends_held hport]
  · have hone : f s [b] = { state := u, passed := [b], rest := none } := hpassed []
    obtain ⟨hout', hport'⟩ := hf.port s [b]
    rw [hone] at hout' hport'
    have hout'' : u.out = [] := hout'.trans hout
    have hport'' : u.port = .free := hport'.trans hport
    exact .inr ⟨u, hout'', hport'', by rw [hone, Taken.ends_all hout'' hport''], hpassed⟩

/-! ### The transactions that waited (R144, R153) -/

/-- R144, R153: with a transaction more at the port, it is taken after the others, as if presented when
the held write has ended. -/
theorem HeldEnd.waiting {f : State → List Beat → Taken} (hf : HeldEnd f) (s : State) (h : Held)
    (u : SysTxn) :
    State.endHeld (s.withWaiting (s.port.waiting ++ [u])) f h =
      ((s.endHeld f h).quiet.present u).after (s.endHeld f h).out := by
  have hbeats : f (s.withWaiting (s.port.waiting ++ [u])).dropHeld h.beats =
      { f s.dropHeld h.beats with
        state := (f s.dropHeld h.beats).state.withWaiting (s.port.waiting ++ [u]) } := by
    obtain ⟨hout, hport⟩ := hf.port s.dropHeld h.beats
    refine (hf.atPort s.dropHeld s.out { held := none, waiting := s.port.waiting ++ [u] } h.beats).trans ?_
    rw [Taken.atPort, State.atPort, State.withWaiting, hport, show s.out = s.dropHeld.out from rfl, ← hout]
    rfl
  have hwaiting : ((f s.dropHeld h.beats).pass h.size h.priorErr h.replies).port.waiting =
      s.port.waiting := by
    rw [Taken.pass_waiting, (hf.port s.dropHeld h.beats).2]
    rfl
  have hquiet : ∀ x : State, x.quiet.after x.out = x := fun x => by
    rw [State.after, State.quiet, List.append_nil]
  rw [State.endHeld, State.endHeld, hbeats, Taken.pass_withWaiting]
  generalize (f s.dropHeld h.beats).pass h.size h.priorErr h.replies = p at hwaiting
  rw [State.resumePort, State.resumePort, hwaiting]
  refine (State.takeWaiting_withWaiting _ p _).trans ?_
  show p.takeWaiting (s.port.waiting ++ [u]) = _
  rw [State.takeWaiting_append]
  generalize p.takeWaiting s.port.waiting = x
  rw [State.present, ← State.takeWaiting_after, hquiet]
  rfl

/-! ### The two events -/

/-- The release of a held write and the expiry of its limit keep RESET_N high. -/
theorem resetN_of_heldEnd {i : Instr} {s t : State} (hi : i = .heldWriteRelease ∨ i = .stallLimitExpiry)
    (hx : exec i s = .next t) (hr : s.pins.resetN = true) : t.pins.resetN = true := by
  have hoff : i.offStage = true := by rcases hi with rfl | rfl <;> rfl
  exact (exec_offStage hoff hx).resetN.trans hr

/-- R144, R147, R155: a held write of several beats ends as its first beat would alone, followed by what
a write of the others would do. -/
theorem exec_heldEnd_several {i : Instr} {s x : State} {h : Held} {b : Beat} {bs : List Beat}
    (hi : i = .heldWriteRelease ∨ i = .stallLimitExpiry) (hr : s.pins.resetN = true)
    (hheld : s.port.held = some h) (hbeats : h.beats = b :: bs) (hwait : s.port.waiting = [])
    (hx : exec i { s with port := { held := some { h with beats := [b] }, waiting := [] } } = .next x) :
    (∀ h' : Held, x.port.held = some h' →
      exec i s = .next { x with port := { held := some { h' with beats := b :: bs }, waiting := [] } }) ∧
    (x.port.held = none → ∀ y : State,
      exec (.systemWrite { size := h.size, beats := bs, replies := h.replies }) x = .next y →
      let failed := h.priorErr = true ∨ h.replies.headD .okay = .error
      (y.port.held = none → exec i s = .next
        { y with out := [.memWrite .system h.size (b :: bs),
                         .sysWriteResp (if failed then .error
                           else .okay)] }) ∧
      ∀ h' : Held, y.port.held = some h' → ∃ ahead : List Beat, bs = ahead ++ h'.beats ∧
        exec i s = .next
          { y with
            out := [.memWrite .system h.size (b :: ahead)]
            port := { held := some { h' with
                        priorErr := decide failed
                        replies := h.replies.tail }
                      waiting := [] } }) := by
  have hport : s.port = { held := some h, waiting := [] } := by rw [← hheld, ← hwait]
  have hwhole : { h with beats := b :: bs } = h := by rw [← hbeats]
  have hdrop : State.dropHeld { s.quiet with port := s.port } = { s.quiet with port := .free } := by
    rw [hport]
    rfl
  have hr1 : x.pins.resetN = true := resetN_of_heldEnd hi hx hr
  rcases exec_heldEnd hi s h.need with hstay | ⟨f, hf, hend⟩
  · have hone := hstay { held := some { h with beats := [b] }, waiting := [] } _ rfl rfl
    obtain rfl := next_eq (hone.symm.trans hx)
    refine ⟨fun h' hh => ?_, nofun⟩
    obtain rfl := Option.some.inj hh
    refine (hstay s.port h hheld rfl).trans ?_
    rw [hport, ← hwhole]
  · have hlong : exec i s = .next ((f { s.quiet with port := .free } (b :: bs)).pass h.size h.priorErr
        h.replies).resumePort := by
      refine (hend s.port h hheld rfl).trans ?_
      rw [State.endHeld, hbeats, hdrop]
    rw [hlong]
    have hone := hend { held := some { h with beats := [b] }, waiting := [] } _ rfl rfl
    replace hone := next_eq (hone.symm.trans hx)
    rcases hf.first_beat (s := { s.quiet with port := .free }) rfl rfl h.size b h.priorErr h.replies with
      ⟨h1, hfirst, hwhole⟩ | ⟨u, hout, hfree, hfirst, hrest⟩
    · obtain rfl := hfirst.symm.trans hone
      refine ⟨fun h' hh => ?_, nofun⟩
      obtain rfl := Option.some.inj hh
      exact congrArg Host.Outcome.next (hwhole bs)
    · obtain rfl := hfirst.symm.trans hone
      have hquiet : State.quiet { u with out := passBeats h.size [b] h.priorErr h.replies } = u := by
        rw [State.quiet, ← hout]
      refine ⟨fun h' hh => ?_, fun _ y hy => ?_⟩
      · cases (congrArg SysPort.held hfree).symm.trans hh
      · have hbeh : State.takeBeats (State.quiet { u with
            out := passBeats h.size [b] h.priorErr h.replies }) bs =
              { state := (u.takeBeats bs).state, passed := (u.takeBeats bs).passed
                rest := (u.takeBeats bs).rest } := congrArg (State.takeBeats · bs) hquiet
        obtain ⟨hall, hpart⟩ := exec_systemWrite_behind (b := b) (failed := h.priorErr) hr1
          ⟨congrArg SysPort.held hfree, congrArg SysPort.waiting hfree⟩ hbeh hy
        rw [hrest]
        refine ⟨fun hn => congrArg Host.Outcome.next (hall hn), fun h' hh => ?_⟩
        obtain ⟨ahead, hahead, heq⟩ := hpart h' hh
        exact ⟨ahead, hahead, congrArg Host.Outcome.next heq⟩

/-- R144, R153: a transaction that waits behind a held write is taken after it as if presented then. -/
theorem exec_heldEnd_waiting {i : Instr} {s x y : State} {h : Held} (u : SysTxn)
    (hi : i = .heldWriteRelease ∨ i = .stallLimitExpiry) (hheld : s.port.held = some h)
    (hx : exec i s = .next x)
    (hy : x.quiet.present u = y) :
    exec i { s with port := { s.port with waiting := s.port.waiting ++ [u] } } =
      .next { y with out := x.out ++ y.out } := by
  subst hy
  rcases exec_heldEnd hi s h.need with hstay | ⟨f, hf, hend⟩
  · obtain rfl := next_eq ((hstay s.port h hheld rfl).symm.trans hx)
    refine (hstay { s.port with waiting := s.port.waiting ++ [u] } h hheld rfl).trans ?_
    have hstill : s.quiet.port.held.isSome = true := by
      rw [show s.quiet.port.held = some h from hheld]
      rfl
    exact congrArg Host.Outcome.next (State.takeWaiting_of_held hstill (s.port.waiting ++ [u])).symm
  · obtain rfl := next_eq ((hend s.port h hheld rfl).symm.trans hx)
    refine (hend { s.port with waiting := s.port.waiting ++ [u] } h hheld rfl).trans ?_
    exact congrArg Host.Outcome.next (hf.waiting s.quiet h u)

end Sys2Proof.Machine

/-! ## Closing writes of one beat (R142 to R147, 12.2) -/

namespace Sys2Proof.Machine

/-! ### The command of an assembly (R141, R142, 12.2) -/

theorem leNat_take_four (bs : List Byte) :
    leNat (bs.take 4) = leNat [bs.getD 0 0, bs.getD 1 0, bs.getD 2 0, bs.getD 3 0] := by
  match bs with
  | [] | [_] | [_, _] | [_, _, _] => rfl
  | _ :: _ :: _ :: _ :: _ => rfl

/-- A word is four bytes, the lowest address in the lowest place; where bytes are missing they are 0. -/
theorem wordAt_getD (bs : List Byte) (j : Nat) : wordAt bs j =
    bs.getD (4 * j + 3) 0 ++ bs.getD (4 * j + 2) 0 ++ bs.getD (4 * j + 1) 0 ++ bs.getD (4 * j) 0 := by
  have hdrop : ∀ i, (bs.drop (4 * j)).getD i 0 = bs.getD (4 * j + i) 0 := fun i => by
    rw [List.getD_eq_getElem?_getD, List.getElem?_drop, ← List.getD_eq_getElem?_getD]
  rw [wordAt, leNat_take_four, leNat_four, hdrop, hdrop, hdrop, hdrop]
  rfl

/-- R142: the command of an assembly is its words 0 to 5 and 7. -/
theorem CommandSlot.command_eq (m : CommandSlot) :
    let word := fun (bs : List Byte) (i : Nat) =>
      bs.getD (4 * i + 3) 0 ++ bs.getD (4 * i + 2) 0 ++ bs.getD (4 * i + 1) 0 ++ bs.getD (4 * i) 0
    m.command = { w0 := word m.lo 0, w1 := word m.lo 1, w2 := word m.lo 2, w3 := word m.lo 3
                  w4 := word m.hi 0, w5 := word m.hi 1, close := word m.hi 3 } := by
  simp only [CommandSlot.command, wordAt_getD]

/-- R141: a beat of the upper half replaces the bytes it enables, but for those of word 6. -/
theorem CommandSlot.merge_upper (m : CommandSlot) (b : Beat) :
    m.merge true b = { m with
      hi := (m.hi.take 16).zipIdx.map fun x =>
        if b.enables.getLsbD x.2 = true ∧ ¬ (8 ≤ x.2 ∧ x.2 < 12) then b.data.extractLsb' (8 * x.2) 8
        else x.1 } :=
  congrArg (fun bytes => { m with hi := bytes }) (mergeLanes_dropWord6 m.hi b)

/-- R142: a code is RELOAD by bits 7..0 of the close word. -/
theorem Command.code_ne_reload (c : Command) :
    c.code ≠ reloadCode ↔ c.close.extractLsb' 0 8 ≠ 0x71 :=
  not_congr (BitVec.toNat_inj (x := c.close.extractLsb' 0 8) (y := 0x71))

/-! ### What comes of a closing beat (R142, R144, R145, R147) -/

section
variable {s : State} {b : Beat} {k : Nat}

/-- R141: a beat of the upper half of a command slot that touches word 7 closes it. -/
theorem State.closes_of_touches (hd : s.device ≠ .loading) (hk : k < 64)
    (haddr : b.addr = s.conf.anchor.toNat + 32 * k + 16)
    (ht : b.enables.getLsbD 12 = true ∨ b.enables.getLsbD 13 = true ∨ b.enables.getLsbD 14 = true ∨
      b.enables.getLsbD 15 = true) : s.closes b = some k := by
  have htouch : b.touches 12 16 = true := by
    rw [Beat.touches_last]
    simpa only [Bool.or_eq_true, or_assoc] using ht
  simp only [State.closes, beatRange_command true hk haddr, htouch, bne_iff_ne.mpr hd, Bool.and_self,
    if_true]

theorem State.monitor_upper {m : CommandSlot} (hd : s.device ≠ .loading) (hk : k < 64)
    (haddr : b.addr = s.conf.anchor.toNat + 32 * k + 16) (hm : (s.slot k).merge true b = m) :
    s.monitor b = s.setSlot k m :=
  (State.monitor_command (beatRange_command true hk haddr) hd).trans (congrArg (s.setSlot k) hm)

end

/-- What comes of a beat that closes slot `n`, as it is decided. -/
def State.closeBeat (s : State) (n : Nat) (b : Beat) (d : Decision) : Taken :=
  match d with
  | .hold need => { state := s, passed := [], rest := some ([b], need) }
  | .append | .answer _ | .discard =>
    { state := (s.monitor b).settle n (s.closingCommand n b) d, passed := [b], rest := none }

section
variable {s : State} {b : Beat} {k : Nat} (hc : s.closes b = some k)
include hc

theorem State.takeBeats_closing :
    s.takeBeats [b] = s.closeBeat k b (s.decideClosing k (s.closingCommand k b)) := by
  cases hd : s.decideClosing k (s.closingCommand k b) with
  | hold | append | answer | discard => simp only [State.takeBeats, hc, hd, State.closeBeat]

theorem State.releaseBeats_closing (need : HoldNeed) :
    s.releaseBeats need [b] = s.closeBeat k b (s.decideAgain need k (s.closingCommand k b)) := by
  cases hd : s.decideAgain need k (s.closingCommand k b) with
  | hold | append | answer | discard =>
    simp only [State.releaseBeats, State.takeBeats, hc, hd, State.closeBeat]

theorem State.expireBeats_closing : s.expireBeats [b] = s.closeBeat k b .discard := by
  simp only [State.expireBeats, State.takeBeats, hc, State.closeBeat, State.settle]

end

/-- R153, R155: a write of one beat is carried to memory, and answered. -/
def State.carry (s : State) (size : BeatSize) (b : Beat) (r : MemResp) : State :=
  (s.emit (.memWrite .system size [b])).emit (.sysWriteResp r)

/-- R142 to R147: the state after a write of one beat that closes slot `k`, as it is decided: `m` is the
slot with the beat merged, and `c` the command it forms. -/
def State.closed (s : State) (size : BeatSize) (b : Beat) (failed : Bool) (rs : List MemResp) (k : Nat)
    (m : CommandSlot) (c : Command) (d : Decision) : State :=
  match d with
  | .hold need =>
    { s with port := {
        held := some { size := size, beats := [b], need := need, priorErr := failed, replies := rs }
        waiting := [] } }
  | .append | .answer _ | .discard =>
    ((s.setSlot k m).settle k c d).carry size b (if failed then .error else rs.headD .okay)

theorem State.settle_monitor_port (s : State) (n : Nat) (b : Beat) (c : Command) (d : Decision) :
    ((s.monitor b).settle n c d).port = s.port := by
  have h : ((s.monitor b).settle n c d) = ((s.monitor b).settle n c d).atPort s.out s.port := by
    rw [← State.settle_atPort, ← State.monitor_atPort]
    rfl
  rw [h]
  rfl

section
variable {s : State} {size : BeatSize} {b : Beat} {k : Nat} {m : CommandSlot} {c : Command}
  {failed : Bool} {rs : List MemResp}

theorem State.closeBeat_passed (d : Decision) (hport : s.port = .free)
    (hmon : s.monitor b = s.setSlot k m) (hform : s.closingCommand k b = c) :
    ((s.closeBeat k b d).pass size failed rs).resumePort = s.closed size b failed rs k m c d := by
  have hcarry : ∀ t : State, t.port = .free →
      (Taken.pass { state := t, passed := [b], rest := none } size failed rs).resumePort =
        t.carry size b (if failed then .error else rs.headD .okay) := fun t ht => by
    rw [Taken.pass_resumed (congrArg SysPort.waiting ht)]
    cases rs <;> rfl
  have hsettled : ∀ d, ((s.setSlot k m).settle k c d).port = .free := fun d => by
    rw [← hmon, State.settle_monitor_port, hport]
  cases d with
  | hold need => exact Taken.ends_held hport [b] need
  | append | answer | discard =>
    simp only [State.closeBeat, State.closed, hform, hmon]
    exact hcarry _ (hsettled _)

/-! ### The decisions (R142, R144, R145, R147) -/

theorem State.flowDecision_eq (s : State) (need : HoldNeed) :
    s.flowDecision need = if s.conf.flow = .pass then .discard else .hold need := by
  unfold State.flowDecision
  cases s.conf.flow <;> rfl

theorem State.answerDecision_eq (s : State) (r : ResultCode) :
    s.answerDecision r = if s.writeBackTaken < 16 then .answer r else s.flowDecision .resultRoom := by
  simp only [State.answerDecision, State.resultRoom_iff]

theorem State.decideClosing_eq (s : State) (n : Nat) (c : Command) : s.decideClosing n c =
    if s.device = .unconfigured ∧ c.close.extractLsb' 0 8 ≠ 0x71 then s.answerDecision .notReady
    else if 64 ≤ s.intake.queue.length then s.flowDecision .intakeRoom
    else if (s.slot n).inFlight = true then s.answerDecision .slotBusy
    else .append :=
  if_congr (and_congr_right' c.code_ne_reload) rfl rfl

theorem State.owedAnswer_eq (s : State) (c : Command) : s.owedAnswer c =
    if s.device = .unconfigured ∧ c.close.extractLsb' 0 8 ≠ 0x71 then .notReady else .slotBusy :=
  if_congr (and_congr_right' c.code_ne_reload) rfl rfl

/-- R143: the command is appended, and its slot, with the beat merged, becomes IN_FLIGHT. -/
theorem State.closed_append (hwf : Store.wf CommandSlot.initial s.intake.slots = true) :
    s.closed size b failed rs k m c .append =
      State.carry
        { (s.setSlot k m).setSlot k { m with inFlight := true } with
          intake := { ((s.setSlot k m).setSlot k { m with inFlight := true }).intake with
            queue := s.intake.queue ++ [{ slot := k, command := c }] } }
        size b (if failed then .error else rs.headD .okay) := by
  have hslot : (s.setSlot k m).slot k = m := (Store.get_put hwf k).trans (if_pos rfl)
  rw [State.closed, State.settle, State.append, hslot]
  rfl

/-! ### The events of a closing write -/

/-- R142: at the free port a closing write of one beat is decided by the first condition that holds. -/
theorem exec_systemWrite_of_closes (hr : s.pins.resetN = true) (hp : s.PortFree)
    (hc : s.closes b = some k) (hmon : s.quiet.monitor b = s.quiet.setSlot k m)
    (hform : s.quiet.closingCommand k b = c) :
    exec (.systemWrite { size := size, beats := [b], replies := rs }) s =
      .next (s.quiet.closed size b false rs k m c (s.quiet.decideClosing k c)) := by
  obtain ⟨hout, hport⟩ := hp.of_takeBeats (beats := []) (t := s.quiet) rfl
  have hbeats : s.quiet.takeBeats [b] = s.quiet.closeBeat k b (s.quiet.decideClosing k c) := by
    rw [← hform]
    exact State.takeBeats_closing hc
  have hwait := congrArg SysPort.waiting ((s.quiet.takeBeats_port [b]).2.trans hport)
  rw [← State.closeBeat_passed _ hport hmon hform, ← hbeats, State.resumePort, Taken.pass_waiting,
    hwait]
  exact exec_systemWrite_of_free hr hp

section
variable {need : HoldNeed}
  (hport : s.port = {
    held := some { size := size, beats := [b], need := need, priorErr := failed, replies := rs }
    waiting := [] })
  (hc : s.closes b = some k)
  (hmon : s.quiet.dropHeld.monitor b = s.quiet.dropHeld.setSlot k m)
  (hform : s.quiet.dropHeld.closingCommand k b = c)
include hport

theorem State.dropHeld_port : s.quiet.dropHeld.port = .free := by
  show { s.port with held := none } = SysPort.free
  rw [hport]

/-- R144, R147: without room for it a held write stays, and its limit may expire. -/
theorem exec_heldWriteRelease_of_noRoom (hroom : s.roomFor need = false) :
    exec .heldWriteRelease s = .next s.quiet := by
  rw [exec_heldWriteRelease_of_held (congrArg SysPort.held hport), hroom]
  rfl

include hc hmon hform

/-- R144, R147: a held write of one beat is decided again when there is room for it. -/
theorem exec_heldWriteRelease_of_closes (hroom : s.roomFor need = true) :
    exec .heldWriteRelease s = .next (s.quiet.dropHeld.closed size b failed rs k m c
      (s.quiet.dropHeld.decideAgain need k c)) := by
  rw [exec_heldWriteRelease_of_held (congrArg SysPort.held hport), if_pos hroom, State.endHeld,
    State.releaseBeats_closing (s := s.quiet.dropHeld) hc, hform,
    State.closeBeat_passed _ (State.dropHeld_port hport) hmon hform]

/-- R144, R145: the limit expires and the command of a held write of one beat is discarded. -/
theorem exec_stallLimitExpiry_of_closes (hroom : s.roomFor need = false) :
    exec .stallLimitExpiry s =
      .next (s.quiet.dropHeld.closed size b failed rs k m c .discard) := by
  rw [exec_stallLimitExpiry_of_held (congrArg SysPort.held hport), if_neg (by simp [hroom]),
    State.endHeld, State.expireBeats_closing (s := s.quiet.dropHeld) hc,
    State.closeBeat_passed _ (State.dropHeld_port hport) hmon hform]

end
end

/-! ## The obligations of the command window -/

/-- Settles O22: a closing write is decided by the first condition of R142 that holds. -/
theorem closingWrite : Obligations.ClosingWrite := by
  intro s size b k replies hr hd hp hwf hk haddr ht old hi merged word c s1 passed lost full answer
  have hc : s.closes b = some k := State.closes_of_touches hd hk haddr ht
  have hmerge : (s.slot k).merge true b = merged := CommandSlot.merge_upper (s.slot k) b
  have hmon : s.quiet.monitor b = s.quiet.setSlot k merged :=
    State.monitor_upper (s := s.quiet) hd hk haddr hmerge
  have hform : s.quiet.closingCommand k b = c :=
    (congrArg CommandSlot.command hmerge).trans (CommandSlot.command_eq merged)
  let closed := s.quiet.closed size b false replies k merged c
  have hfull : ∀ need, closed (s.quiet.flowDecision need) = full need := fun need => by
    rw [State.flowDecision_eq]
    exact apply_ite closed (s.conf.flow = .pass) .discard (.hold need)
  have hanswer : ∀ r, closed (s.quiet.answerDecision r) = answer r := fun r => by
    rw [State.answerDecision_eq]
    exact (apply_ite closed (s.writeBackTaken < 16) _ _).trans (if_congr .rfl rfl (hfull .resultRoom))
  rw [exec_systemWrite_of_closes hr hp hc hmon hform, State.decideClosing_eq]
  refine congrArg Host.Outcome.next ((apply_ite closed _ _ _).trans ?_)
  refine if_congr .rfl (hanswer .notReady) ?_
  refine (apply_ite closed _ _ _).trans (if_congr .rfl (hfull .intakeRoom) ?_)
  exact (apply_ite closed _ _ _).trans (if_congr .rfl (hanswer .slotBusy) (State.closed_append hwf))

/-- Settles O23: the first beat of a held write is decided again or discarded, the beats behind it are
taken where it left off, and the transactions that waited after them. -/
theorem heldWriteEnds : Obligations.HeldWriteEnds := by
  refine ⟨?oneBeat, fun i s h hi hr hheld =>
    ⟨fun b bs hbeats _ hwait x hx => ?several, fun u x y hx hy => ?waiting⟩⟩
  case several => exact exec_heldEnd_several hi hr hheld hbeats hwait hx
  case waiting =>
    have hr1 := resetN_of_heldEnd hi hx hr
    refine exec_heldEnd_waiting u hi hheld hx ?_
    cases u <;> exact next_eq ((exec_present hr1 _).symm.trans hy)
  intro s size b k need priorErr replies hr hd hport hwf hk haddr ht old hi merged word c s1 passed
    answered queued lost
  have hc : s.closes b = some k := State.closes_of_touches hd hk haddr ht
  have hmerge : (s.slot k).merge true b = merged := CommandSlot.merge_upper (s.slot k) b
  have hmon : s.quiet.dropHeld.monitor b = s.quiet.dropHeld.setSlot k merged :=
    State.monitor_upper (s := s.quiet.dropHeld) hd hk haddr hmerge
  have hform : s.quiet.dropHeld.closingCommand k b = c :=
    (congrArg CommandSlot.command hmerge).trans (CommandSlot.command_eq merged)
  let closed := s.quiet.dropHeld.closed size b priorErr replies k merged c
  have hqueued : closed .append = queued := State.closed_append hwf
  have hrelease := exec_heldWriteRelease_of_closes hport hc hmon hform
  have hanswer : ∀ r, s.writeBackTaken < 16 → s.quiet.dropHeld.answerDecision r = .answer r :=
    fun r hroom => (State.answerDecision_eq _ r).trans (if_pos hroom)
  refine ⟨?_, ?_, ?_, ?_⟩
  · rintro rfl hqueue hroom
    rw [hrelease (decide_eq_true hqueue), State.decideAgain, State.decideSlot, hanswer _ hroom]
    exact congrArg Host.Outcome.next ((apply_ite closed _ _ _).trans (if_congr .rfl rfl hqueued))
  · rintro rfl hqueue hfull hflow
    have hheld : s.quiet.dropHeld.answerDecision .slotBusy = .hold .resultRoom := by
      rw [State.answerDecision_eq, State.flowDecision_eq]
      exact (if_neg (Nat.not_lt.mpr hfull)).trans (if_neg (by simp [hflow]))
    rw [hrelease (decide_eq_true hqueue), State.decideAgain, State.decideSlot, hheld]
    exact congrArg Host.Outcome.next ((apply_ite closed _ _ _).trans (if_congr .rfl rfl hqueued))
  · rintro rfl hroom
    rw [hrelease (decide_eq_true hroom), State.decideAgain, hanswer _ hroom, State.owedAnswer_eq]
    rfl
  · intro hfull
    have hnone : s.roomFor need = false := by
      rcases hfull with ⟨rfl, hfull⟩ | ⟨rfl, hfull⟩
      · exact decide_eq_false (Nat.not_lt.mpr hfull)
      · exact decide_eq_false (Nat.not_lt.mpr hfull)
    exact ⟨exec_heldWriteRelease_of_noRoom hport hnone,
      exec_stallLimitExpiry_of_closes hport hc hmon hform hnone⟩

end Sys2Proof.Machine

/-! ## The event commands (R134, R157 to R160, R172) -/

namespace Sys2Proof.Machine

/-! ### Event bits (R157 to R160) -/

/-- R159, R160: the selector has a bit for each of the 19 events. -/
theorem Command.getLsbD_eventSelector (c : Command) (i : Nat) :
    c.eventSelector.getLsbD i = (decide (i < 19) && c.w0.getLsbD i) := by
  simp [Command.eventSelector, BitVec.getLsbD_extractLsb']

/-- R159, R172: the fills by the whole of w1. -/
theorem Command.fill_eq (c : Command) :
    c.fill = if 1 < c.w1.toNat then none else some (c.w1.toNat == 1) := by
  have hzero : c.w1 = 0 ↔ c.w1.toNat = 0 := BitVec.toNat_inj.symm
  have hone : c.w1 = 1 ↔ c.w1.toNat = 1 := BitVec.toNat_inj.symm
  rw [Command.fill]
  simp only [hzero, hone]
  generalize c.w1.toNat = n
  match n with
  | 0 | 1 => rfl
  | k + 2 => exact (if_pos (by omega)).symm

/-- R159: a mask bit behind a fill. -/
theorem getLsbD_maskFill (mask selector : BitVec 19) (fill : Bool) {i : Nat} (hi : i < 19) :
    (maskFill mask selector fill).getLsbD i =
      if selector.getLsbD i then fill else mask.getLsbD i := by
  cases fill with
  | true =>
    rw [maskFill, if_pos rfl, BitVec.getLsbD_or]
    cases selector.getLsbD i <;> simp
  | false =>
    rw [maskFill, if_neg Bool.false_ne_true, BitVec.getLsbD_and, BitVec.getLsbD_not]
    cases selector.getLsbD i <;> simp [hi]

/-- R160: an event bit behind an acknowledgment. -/
theorem getLsbD_eventsAck (events selector : BitVec 19) (b : Fin 19) :
    (eventsAck events selector).getLsbD b.val =
      (events.getLsbD b.val && !selector.getLsbD b.val) := by
  simp [eventsAck]

/-- R158: ATTN by the bits. -/
theorem State.attn_iff (s : State) :
    s.attn = true ↔
      ∃ b : Fin 19, s.rep.events.getLsbD b.val = true ∧ s.rep.mask.getLsbD b.val = true := by
  have hnone : s.rep.events &&& s.rep.mask = 0 ↔
      ∀ b : Fin 19, ¬ (s.rep.events.getLsbD b.val = true ∧ s.rep.mask.getLsbD b.val = true) := by
    refine ⟨fun h b => ?_, fun h => BitVec.eq_of_getLsbD_eq fun i hi => ?_⟩
    · rw [← Bool.and_eq_true, ← BitVec.getLsbD_and, h]
      exact ne_true_of_eq_false BitVec.getLsbD_zero
    · rw [BitVec.getLsbD_and, BitVec.ofNat_eq_ofNat, BitVec.getLsbD_zero, ← Bool.not_eq_true,
        Bool.and_eq_true]
      exact h ⟨i, hi⟩
  rw [State.attn, bne_iff_ne, ne_eq, hnone, not_forall]
  simp only [not_not]

/-- R149, R157: a completion with OK sets no event. -/
theorem State.complete_ok_rep (s : State) (e : IntakeEntry) : (s.complete e .ok).rep = s.rep := by
  rw [State.complete_eq]
  exact congrArg (fun b => { s.rep with events := b }) BitVec.or_zero

/-! ### EVENT_MASK (R159) -/

theorem eventMaskEffect_eq (c : Command) (s : State) :
    eventMaskEffect c s =
      if 1 < c.w1.toNat then (s, .badArg)
      else
        ({ s with rep := { s.rep with
            mask := maskFill s.rep.mask c.eventSelector (c.w1.toNat == 1) } }, .ok) := by
  rw [eventMaskEffect, Command.fill_eq, orBadArg_ite]

/-- Settles O16: a fill that is refused, and the mask bits and ATTN behind one that is not. -/
theorem eventMaskCommand : Obligations.EventMaskCommand := by
  intro s e h c
  have hexec : exec .eventMask s =
      .next ((eventMaskEffect c s.quiet).1.complete e (eventMaskEffect c s.quiet).2) :=
    congrArg Host.Outcome.next (State.run_of_executes h _)
  rw [hexec, eventMaskEffect_eq]
  refine ⟨fun hbad => by rw [if_pos (Nat.lt_of_succ_le hbad)], fun hfill => ?_⟩
  let m := maskFill s.rep.mask c.eventSelector (c.w1.toNat == 1)
  let t := State.complete { s.quiet with rep := { s.rep with mask := m } } e .ok
  have hrep : t.rep = { s.rep with mask := m } := State.complete_ok_rep _ e
  have hevents : t.rep.events = s.rep.events := by rw [hrep]
  refine ⟨m, t, by rw [if_neg (Nat.not_lt.mpr (Nat.le_of_lt_succ hfill))]; rfl, rfl, fun b => ?_,
    hevents, ?_⟩
  · rw [getLsbD_maskFill _ _ _ b.isLt, Command.getLsbD_eventSelector, decide_eq_true b.isLt,
      Bool.true_and]
    rfl
  · rw [State.attn_iff, hrep]

/-! ### EVENT_ACK (R134, R160) -/

/-- Settles O17: the event bits, and the capture records whose CUE_CAPTURE the selector names. -/
theorem eventAckCommand : Obligations.EventAckCommand := by
  intro s e h c done
  refine ⟨eventsAck s.rep.events c.eventSelector, fun b => ?_, ?_⟩
  · rw [getLsbD_eventsAck, Command.getLsbD_eventSelector, decide_eq_true b.isLt, Bool.true_and]
  · refine congrArg Host.Outcome.next ((State.run_of_executes h _).trans ?_)
    simp only [eventAckEffect, Command.getLsbD_eventSelector, Nat.reduceLT, decide_true, Bool.true_and]
    rfl

end Sys2Proof.Machine

/-! ## The words of the report block (R162, R173, R175, 12.5) -/

namespace Sys2Proof.Machine

/-! ### Bytes and halves of a word -/

theorem bytesWord_toNat (b0 b1 b2 b3 : Nat) :
    (bytesWord b0 b1 b2 b3).toNat =
      b0 % 256 + 256 * (b1 % 256) + 65536 * (b2 % 256) + 16777216 * (b3 % 256) := by
  rw [bytesWord, BitVec.toNat_ofNat]
  omega

theorem halvesWord_toNat (lo hi : Nat) :
    (halvesWord lo hi).toNat = lo % 65536 + 65536 * (hi % 65536) := by
  rw [halvesWord, BitVec.toNat_ofNat]
  omega

theorem bits_bytesWord_byte0 (b0 b1 b2 b3 : Nat) : bits (bytesWord b0 b1 b2 b3) 0 8 = b0 % 256 := by
  rw [bits_eq, bytesWord_toNat]
  omega

theorem bits_bytesWord_byte1 (b0 b1 b2 b3 : Nat) : bits (bytesWord b0 b1 b2 b3) 8 8 = b1 % 256 := by
  rw [bits_eq, bytesWord_toNat]
  omega

theorem bits_bytesWord_upperHalf (b0 b1 b2 b3 : Nat) :
    bits (bytesWord b0 b1 b2 b3) 16 16 = b2 % 256 + 256 * (b3 % 256) := by
  rw [bits_eq, bytesWord_toNat]
  omega

theorem bits_bytesWord_upper (b0 b1 : Nat) : bits (bytesWord b0 b1 0 0) 8 24 = b1 % 256 := by
  rw [bits_eq, bytesWord_toNat]
  omega

theorem bits_bytesWord_byte2 (b0 b1 b2 : Nat) : bits (bytesWord b0 b1 b2 0) 16 16 = b2 % 256 :=
  bits_bytesWord_upperHalf b0 b1 b2 0

/-- A number of two bytes in the upper half of a word. -/
theorem bits_bytesWord_split (b0 b1 n : Nat) :
    bits (bytesWord b0 b1 (n % 256) (n / 256)) 16 16 = n % 65536 := by
  rw [bits_bytesWord_upperHalf]
  omega

theorem bits_halvesWord_lower (lo hi : Nat) : bits (halvesWord lo hi) 0 16 = lo % 65536 := by
  rw [bits_eq, halvesWord_toNat]
  omega

theorem halvesWord_upper (lo : Nat) (hi : BitVec 16) :
    (halvesWord lo hi.toNat).extractLsb' 16 16 = hi := by
  refine BitVec.eq_of_toNat_eq ((bits_eq _ 16 16).trans ?_)
  rw [halvesWord_toNat]
  omega

theorem halvesWord_zero_toNat (lo : Nat) : (halvesWord lo 0).toNat = lo % 65536 := halvesWord_toNat lo 0

/-! ### The codes of 12.5 -/

theorem bit01_eq (b : Bool) : bit01 b = b.toNat := by cases b <;> rfl

theorem bit01_mod (b : Bool) : bit01 b % 256 = b.toNat := by cases b <;> rfl

theorem DeviceState.code_lt (d : DeviceState) : d.code < 256 := by cases d <;> decide

theorem LoaderStatus.code_lt (d : LoaderStatus) : d.code < 256 := by cases d <;> decide

theorem reasonCode_lt (r : Option LoadReason) : reasonCode r < 256 := by
  rcases r with _ | r
  · decide
  · cases r <;> decide

theorem LaneState.code_lt (l : LaneState) : l.code < 256 := by cases l <;> decide

theorem Resume.code_lt (r : Resume) : r.code < 256 := by cases r <;> decide

/-! ### The places of the block (12.5) -/

/-- Words of a run that stand in a list from place `r` on. -/
theorem getD_of_run {ws run : List Word} {r : Nat} (h : (ws.drop r).take run.length = run) {j : Nat}
    (hj : j < run.length) : ws.getD (r + j) 0 = run.getD j 0 := by
  conv_rhs => rw [← h]
  rw [List.getD_eq_getElem?_getD, List.getD_eq_getElem?_getD, List.getElem?_take_of_lt hj,
    List.getElem?_drop]

theorem State.reportWords_lane (s : State) (n : Fin 4) {j : Nat} (hj : j < 8) :
    s.reportWords.getD (16 + 8 * n.val + j) 0 = (s.laneRecord (s.lane n)).getD j 0 := by
  refine getD_of_run (run := s.laneRecord (s.lane n)) ?_ hj
  match n with
  | 0 | 1 | 2 | 3 => rfl

theorem State.reportWords_capture (s : State) (n : Fin 4) {j : Nat} (hj : j < 4) :
    s.reportWords.getD (48 + 4 * n.val + j) 0 = (s.cue.inputs.get n).capture.record.getD j 0 := by
  refine getD_of_run (run := (s.cue.inputs.get n).capture.record) ?_ hj
  match n with
  | 0 | 1 | 2 | 3 => rfl

theorem State.reportWords_zero (s : State) {k : Nat}
    (hk : (11 ≤ k ∧ k ≤ 15) ∨ (64 ≤ k ∧ k ≤ 126)) : s.reportWords.getD k 0 = 0 := by
  have hrun : ∀ {r m j : Nat}, (s.reportWords.drop r).take m = List.replicate m 0 → j < m →
      s.reportWords.getD (r + j) 0 = 0 := fun {r m j} h hj => by
    have hlen : (List.replicate m (0 : Word)).length = m := List.length_replicate
    rw [getD_of_run (run := List.replicate m 0) (by rw [hlen, h]) (hlen.symm ▸ hj),
      List.getD_replicate _ hj]
  rcases hk with ⟨hlo, hhi⟩ | ⟨hlo, hhi⟩
  · obtain ⟨j, rfl⟩ := Nat.exists_eq_add_of_le hlo
    exact hrun (m := 5) rfl (by omega)
  · obtain ⟨j, rfl⟩ := Nat.exists_eq_add_of_le hlo
    exact hrun (m := 63) rfl (by omega)

/-! ### Cue levels -/

/-- The number that bits give, the lowest first. -/
theorem testBit_foldr_bit : ∀ (bs : List Bool) (i : Nat),
    (bs.foldr Nat.bit 0).testBit i = bs.getD i false
  | [], i => Nat.zero_testBit i
  | b :: _, 0 => Nat.testBit_bit_zero b _
  | b :: bs, i + 1 => (Nat.testBit_bit_succ i b _).trans (testBit_foldr_bit bs i)

/-- 12.5: the cue levels, the lowest bit first. -/
def CueUnit.levels (u : CueUnit) : List Bool :=
  [u.inputs.e0.accepted, u.inputs.e1.accepted, u.inputs.e2.accepted, u.inputs.e3.accepted, u.out0, u.out1]

theorem CueUnit.levelsWord_eq (u : CueUnit) :
    u.levelsWord = BitVec.ofNat 32 (u.levels.foldr Nat.bit 0) := by
  simp only [CueUnit.levelsWord, CueUnit.levels, List.foldr, bit01_eq, Nat.bit_val]
  congr 1
  omega

theorem CueUnit.getLsbD_levelsWord (u : CueUnit) {i : Nat} (hi : i < 32) :
    u.levelsWord.getLsbD i = u.levels.getD i false := by
  rw [CueUnit.levelsWord_eq, BitVec.getLsbD_ofNat, testBit_foldr_bit, decide_eq_true hi, Bool.true_and]

/-- 12.5: the levels of the inputs. -/
theorem CueUnit.getLsbD_levelsWord_input (u : CueUnit) (n : Fin 4) :
    u.levelsWord.getLsbD n.val = (u.inputs.get n).accepted := by
  rw [u.getLsbD_levelsWord (by omega)]
  match n with
  | 0 | 1 | 2 | 3 => rfl

/-- R173: above the six levels the word is zero. -/
theorem CueUnit.bits_levelsWord (u : CueUnit) : bits u.levelsWord 6 26 = 0 := by
  refine (bits_eq_zero_iff _ 6 26).mpr (BitVec.eq_of_getLsbD_eq fun i hi => ?_)
  have hlen : u.levels.length ≤ 6 + i := Nat.le_add_right 6 i
  rw [BitVec.getLsbD_extractLsb', u.getLsbD_levelsWord (by omega), List.getD_eq_default _ _ hlen,
    Bool.and_false]
  exact BitVec.getLsbD_zero.symm

/-! ### Lane records (12.5) -/

/-- R162, R173, R175: the words of the record of a lane that keeps its ranges. -/
theorem State.laneRecord_words (s : State) {l : Lane} (h : l.Lawful) :
    let w := fun j : Nat => (s.laneRecord l).getD j 0
    bits (w 0) 0 8 = l.state.code ∧ bits (w 0) 8 8 = l.resume.code ∧ bits (w 0) 16 16 = l.fade ∧
      (w 1).toNat = l.offset ∧ bits (w 2) 0 8 = l.placed.length ∧ bits (w 2) 8 8 = l.ring.length ∧
      bits (w 2) 16 16 = l.passCount ∧ (w 3).toNat = l.dwellCount ∧ w 4 = s.headTagWord l ∧
      w 5 = 0 ∧ w 6 = 0 ∧ w 7 = 0 := by
  obtain ⟨hfade, hring, hplaced, _, hoffset, hpass, hdwell, _⟩ := h
  refine ⟨(bits_bytesWord_byte0 ..).trans (Nat.mod_eq_of_lt l.state.code_lt),
    (bits_bytesWord_byte1 ..).trans (Nat.mod_eq_of_lt l.resume.code_lt),
    (bits_bytesWord_split ..).trans (Nat.mod_eq_of_lt (by omega)),
    (BitVec.toNat_ofNat ..).trans (Nat.mod_eq_of_lt (by omega)),
    (bits_bytesWord_byte0 ..).trans (Nat.mod_eq_of_lt (Nat.lt_of_le_of_lt hplaced (by decide))),
    (bits_bytesWord_byte1 ..).trans (Nat.mod_eq_of_lt (by omega)),
    (bits_bytesWord_byte2 ..).trans (Nat.mod_eq_of_lt (by omega)),
    (halvesWord_zero_toNat _).trans (Nat.mod_eq_of_lt (by omega)), rfl, rfl, rfl, rfl⟩

/-- R173: with nothing placed the head tag is all ones. -/
theorem State.headTagWord_of_none (s : State) {l : Lane} (h : l.placed = []) :
    s.headTagWord l = 0xFFFFFFFF := by
  rw [State.headTagWord, h]
  cases l.ring <;> rfl

/-- 12.5: the tag of the head item of a lane with an entry placed. -/
theorem State.headTagWord_of_head (s : State) {l : Lane} {i : Nat} (hi : i ∈ l.ring.head?)
    (h : l.placed ≠ []) : s.headTagWord l = (s.item i).tag.setWidth 32 := by
  obtain ⟨rest, hring⟩ := List.head?_eq_some_iff.mp hi
  obtain ⟨p, ps, hplaced⟩ := List.exists_cons_of_ne_nil h
  rw [State.headTagWord, hring, hplaced]

/-! ### Capture records (12.5) -/

/-- 12.5, R173: the words of a capture record. -/
theorem Capture.record_words (c : Capture) :
    let w := fun j : Nat => c.record.getD j 0
    bits (w 0) 0 8 = c.valid.toNat + 2 * c.overwritten.toNat ∧ bits (w 0) 8 8 = c.lane.val ∧
      bits (w 0) 16 16 = c.item.getD 0xFFFF % 65536 ∧
      w 1 = c.tag.elim 0xFFFFFFFF (BitVec.setWidth 32) ∧ w 2 = c.count ∧ w 3 = 0 := by
  have hvalid := Bool.toNat_le c.valid
  have hover := Bool.toNat_le c.overwritten
  refine ⟨(bits_bytesWord_byte0 ..).trans ?_,
    (bits_bytesWord_byte1 ..).trans (Nat.mod_eq_of_lt (by omega)), bits_bytesWord_split .., ?_, rfl, rfl⟩
  · rw [bit01_eq, bit01_eq]
    exact Nat.mod_eq_of_lt (by omega)
  · cases htag : c.tag <;> simp [Capture.record, htag]

/-! ### The words before the records (12.5) -/

/-- R54, R63: the pending-slot count counts the slots whose pending flag is set. -/
theorem State.pendingCount_eq (s : State) :
    s.pendingCount = s.quotes.countP fun e => e.2.pend.isSome := by
  rw [State.pendingCount, State.pendingSlots, List.length_map, List.countP_eq_length_filter]

/-- Settles O27: the words at their places, run by run of the block. -/
theorem reportBlock : Obligations.ReportBlock := by
  intro s hlanes w
  refine ⟨rfl, rfl, rfl, ?device, ?latch, ?killN, ?status, ?reason, rfl, rfl, rfl,
    halvesWord_zero_toNat _, ?depth, bits_halvesWord_lower .., halvesWord_upper .., ?pending,
    s.cue.getLsbD_levelsWord_input, s.cue.getLsbD_levelsWord (by decide),
    s.cue.getLsbD_levelsWord (by decide), s.cue.bits_levelsWord, fun n => ?lane, fun n => ?capture,
    fun k hk => s.reportWords_zero hk⟩
  case device => exact (bits_bytesWord_byte0 ..).trans (Nat.mod_eq_of_lt s.device.code_lt)
  case latch => exact (bits_bytesWord_byte1 ..).trans (bit01_mod _)
  case killN => exact (bits_bytesWord_byte2 ..).trans (bit01_mod _)
  case status => exact (bits_bytesWord_byte0 ..).trans (Nat.mod_eq_of_lt s.loader.status.code_lt)
  case reason => exact (bits_bytesWord_upper ..).trans (Nat.mod_eq_of_lt (reasonCode_lt _))
  case depth => exact bytesWord_toNat ..
  case pending => exact (halvesWord_zero_toNat _).trans (congrArg (· % 65536) s.pendingCount_eq)
  case lane =>
    intro l r
    have hword : ∀ {j : Nat}, j < 8 → w (r + j) = (s.laneRecord l).getD j 0 := s.reportWords_lane n
    obtain ⟨hstate, hresume, hfade, hoffset, hplaced, hring, hpass, hdwell, htag, h5, h6, h7⟩ :=
      s.laneRecord_words (hlanes n)
    have hfirst : w r = (s.laneRecord l).getD 0 0 := hword (j := 0) (by decide)
    simp only [hfirst, hword, Nat.reduceLT]
    exact ⟨hstate, hresume, hfade, hoffset, hplaced, hring, hpass, hdwell,
      fun hnone => htag.trans (s.headTagWord_of_none hnone),
      fun i hi hsome => htag.trans (s.headTagWord_of_head hi hsome), h5, h6, h7⟩
  case capture =>
    intro c r
    have hword : ∀ {j : Nat}, j < 4 → w (r + j) = c.record.getD j 0 := s.reportWords_capture n
    obtain ⟨hflags, hlane, hitem, htag, hcount, hzero⟩ := c.record_words
    have hfirst : w r = c.record.getD 0 0 := hword (j := 0) (by decide)
    simp only [hfirst, hword, Nat.reduceLT]
    refine ⟨hflags, hlane, hitem.trans ?_, htag.trans ?_, hcount, hzero⟩
    · cases c.item <;> rfl
    · cases c.tag <;> rfl

end Sys2Proof.Machine

/-! ## Power-on reset and REINIT (R119, R131, R157, R158, R166, R170) -/

namespace Sys2Proof.Machine

/-! ### The laws right after reset (R166) -/

/-- R123, R166: midnight is a time of day, and there is no field rate. -/
theorem State.clockLaw_powerOn (s : State) : s.powerOn.ClockLaw :=
  ⟨show TimeOfDay.midnight.valid = true by decide, nofun⟩

/-- R166: whatever state RESET_N finds, it leaves one that meets every law. -/
theorem State.sound_powerOn (s : State) : s.powerOn.Sound := by
  have hlanes : s.powerOn.lanes = Four.all Lane.initial := rfl
  obtain ⟨hkill, hdevice⟩ := s.safe_powerOn
  obtain ⟨hintake, hstores⟩ := s.powerOn.orderly_iff.mp s.orderly_powerOn
  have hrings := s.powerOn.ringLaw_iff.mpr (.of_initial hlanes)
  have hfit := State.fitLaw_of_unplaced (State.unplaced_of_initial hlanes)
  exact ⟨linesLaw_lanesKept.initial hlanes, hkill, laneLaw_lanesKept.initial hlanes, hrings, hdevice,
    hfit, hstores, hintake, s.clockLaw_powerOn⟩

/-- R166: the machine right after reset is what power-on reset leaves of it, with nothing driven. -/
theorem State.reset_eq_quiet_powerOn : State.reset = State.reset.powerOn.quiet := rfl

/-- No law reads what the part drives on its ports. -/
theorem State.Sound.quiet {s : State} (h : s.Sound) : s.quiet.Sound := h

/-- Settles O3: power-on reset answers a sound state. -/
theorem soundAtReset : Obligations.SoundAtReset := by
  unfold Obligations.SoundAtReset
  rw [State.reset_eq_quiet_powerOn]
  exact State.reset.sound_powerOn.quiet

/-! ### The power-on values (R166) -/

/-- R117: of an absent font every glyph but code 0 is undefined. -/
theorem Font.glyph_absent_of_ne {code : Byte} (h : code ≠ 0) :
    Font.absent.glyph code = Glyph.undefined :=
  if_neg fun e => h (BitVec.eq_of_toNat_eq e.symm)

/-- R119: after reset both copies of every style are the built-in one. -/
theorem State.style_powerOn (s : State) (k : Nat) :
    s.powerOn.style k = Style.builtIn ∧ s.powerOn.pendingStyle k = Style.builtIn :=
  ⟨Store.get_nil _ k, Store.get_nil _ k⟩

/-- R109, R113, R45, R126, R140: after reset every numbered store reads as its reset record. -/
theorem State.stores_powerOn (s : State) :
    (∀ i, s.powerOn.item i = Item.undefined) ∧ (∀ i, s.powerOn.segment i = Segment.empty) ∧
      (∀ n, s.powerOn.quote n = QuoteSlot.initial) ∧
      (∀ i, s.powerOn.schedEntry i = SchedEntry.initial) ∧
      (∀ n, s.powerOn.slot n = CommandSlot.initial) :=
  ⟨Store.get_nil _, Store.get_nil _, Store.get_nil _, Store.get_nil _, Store.get_nil _⟩

theorem State.lane_powerOn (s : State) (n : Fin 4) : s.powerOn.lane n = Lane.initial := Four.get_all _ n

theorem State.font_powerOn (s : State) (n : Fin 4) : s.powerOn.fonts.get n = Font.absent :=
  Four.get_all _ n

theorem State.input_powerOn (s : State) (n : Fin 4) :
    s.powerOn.cue.inputs.get n = CueInput.initial := Four.get_all _ n

/-- R158: with no event bit set ATTN is low. -/
theorem State.attn_of_no_events {s : State} (h : s.rep.events = 0) : s.attn = false := by
  rw [State.attn, h, bne_eq_false_iff_eq]
  exact BitVec.zero_and

/-- Settles O2: block by block, what `State.powerOn` holds in each of them. -/
theorem powerOnResetValues : Obligations.PowerOnResetValues := by
  intro s
  obtain ⟨hitems, hsegments, hquotes, hschedule, hslots⟩ := s.stores_powerOn
  have hfonts : ∀ n : Fin 4, (s.powerOn.fonts.get n).height = 8 ∧
      (s.powerOn.fonts.get n).defaultAdvance = 4 ∧
      (s.powerOn.fonts.get n).glyph 0 = { advance := 4, width := 0, nibbles := [] } ∧
      ∀ code, code ≠ 0 → ((s.powerOn.fonts.get n).glyph code).advance = 0 := fun n => by
    rw [s.font_powerOn n]
    exact ⟨rfl, rfl, rfl, fun _ hcode => congrArg Glyph.advance (Font.glyph_absent_of_ne hcode)⟩
  have hattn : s.powerOn.attn = false := State.attn_of_no_events rfl
  exact ⟨s.powerOn, rfl, rfl, rfl, rfl, hattn, s.lane_powerOn, hitems, hsegments, hquotes, hfonts,
    s.style_powerOn, rfl, rfl, rfl, hschedule, s.input_powerOn, rfl, rfl, rfl, rfl, rfl, hslots,
    rfl, rfl, rfl, rfl, rfl, rfl, rfl, rfl, rfl⟩

/-! ### REINIT (R170) -/

/-- R131, R170: the clearing leaves a cue input its sampling state alone. -/
theorem State.input_clearProgram (s : State) (n : Fin 4) :
    s.clearProgram.cue.inputs.get n = (s.cue.inputs.get n).clear := by
  match n with
  | 0 | 1 | 2 | 3 => rfl

theorem State.lane_clearProgram (s : State) (n : Fin 4) : s.clearProgram.lane n = Lane.initial :=
  Four.get_all _ n

/-- R158, R170: REINIT's completion sets no event, so that ATTN is low behind it. -/
theorem State.attn_complete_clearProgram (s : State) (e : IntakeEntry) :
    (s.clearProgram.complete e .ok).attn = false :=
  State.attn_of_no_events (congrArg ReportWriter.events (s.clearProgram.complete_ok_rep e))

/-- Settles O18: the command's effect is the clearing, block by block. -/
theorem reinitCommand : Obligations.ReinitCommand := by
  intro s e h
  have hrun : exec .reinit s = .next (s.quiet.clearProgram.complete e .ok) :=
    congrArg Host.Outcome.next (State.run_of_executes h _)
  exact ⟨s.quiet.clearProgram, hrun, s.quiet.attn_complete_clearProgram e, s.quiet.lane_clearProgram,
    Store.get_nil _, Store.get_nil _, Store.get_nil _, Store.get_nil _, fun _ => ⟨rfl, rfl⟩, rfl, rfl,
    s.quiet.input_clearProgram, rfl⟩

end Sys2Proof.Machine

namespace Sys2Proof.Machine

/-! ## The queue of commands (notes/assumptions/1.md) -/

/-- Settles O1: the step's equation for a queue that is not empty, with `c` at its front; the rest
replaces the queue whole, so that what stood in it before is not seen. -/
theorem stepRunsFront : Obligations.StepRunsFront := by
  intro c rest s
  have hfront : ({ s with pending := c :: rest } : State).pending = c :: rest := rfl
  exact step_of_pending hfront

end Sys2Proof.Machine
